-- ==== Sys2Proof/Word.lean ====
section
/-! DEFINITION. The widths of the interface (spec/00_scope.md R9, R10). -/

namespace Sys2Proof

/-- `u8`: a data byte, a CRC byte, a table index, the accumulator. -/
abbrev Byte := BitVec 8

/-- `u16`: the value of a DataWord. -/
abbrev Half := BitVec 16

/-- `u32`: a request word or a response word. -/
abbrev Word := BitVec 32

end Sys2Proof
end

