-- ==== Sys2Proof/Syntax.lean ====
section
/-! DEFINITION. What crosses the block's interface, as data: the request's fields, the operations, the
response's fields, the wire's DataWords and frames, and the lines of the assembler. -/

namespace Sys2Proof

/-- The four fields of a request word (R41). -/
structure Fields where
  op : Byte
  b0 : Byte
  b1 : Byte
  ci : Byte
deriving DecidableEq, Repr

/-- The operations, one constructor per row of spec/opcode_table.json. Every constructor keeps all three
bytes of its request, the don't-care ones too (R45), so that no bit of a request is lost. -/
inductive Instr where
  /-- GEN b0, b1 (R66); `ci` is don't-care. -/
  | gen (b0 b1 ci : Byte)
  /-- VAL b0, b1, c (R67). -/
  | val (b0 b1 ci : Byte)
  /-- CHK b0, b1, c (R68). -/
  | chk (b0 b1 ci : Byte)
  /-- LUT i (R69), the index in the B0 field; `b1` and `ci` are don't-care. -/
  | lut (index b1 ci : Byte)
deriving DecidableEq, Repr

/-- The errors of the ERR field (R77). Code 3 is never produced, so no constructor stands for it. -/
inductive Err where
  | noError
  | badChecksum
  | illegalOp
deriving DecidableEq, Repr

/-- The fields of a response (R17, R42); bits 31:27 are always 0 and are no field. -/
structure Response where
  crc  : Byte
  data : Half
  ok   : Bool
  err  : Err
deriving DecidableEq, Repr

/-- A DataWord as received from the bus (R38): two data bytes, then the CRC byte. -/
structure DataWord where
  b0  : Byte
  b1  : Byte
  crc : Byte
deriving DecidableEq, Repr

/-- The two frames the driver checks with the block (R39, R40). -/
inductive FrameKind where
  | productId
  | measurement
deriving DecidableEq, Repr

/-- A line of assembly with its literals as they are written (R47, R48): a literal may be too large. -/
inductive Asm where
  | gen (b0 b1 : Nat)
  | val (b0 b1 c : Nat)
  | chk (b0 b1 c : Nat)
  | lut (i : Nat)
  /-- `.req 0xHHHHHHHH`, the request word itself. -/
  | req (w : Nat)
  | genw (w : Nat)
  | valw (w c : Nat)
  | chkw (w c : Nat)
  /-- `CHKF n, x0, …, x(3n-1)`. -/
  | chkf (n : Nat) (bytes : List Nat)
deriving DecidableEq, Repr

end Sys2Proof
end

