-- ==== Sys2Proof/Machine/Operands.lean ====
section
/-! DEFINITION. Operand assembly (spec/30_encoding.md R44, spec/20_memory.md R27 and R29): bytes to values. -/

namespace Sys2Proof.Machine

/-- The value of two data bytes, `{B0, B1}`: big-endian and unsigned (R27, R44). -/
def dataValue (b0 b1 : Byte) : Half := b0 ++ b1

/-- The bytes of a u16, high byte first (R48: `w[15:8]`, `w[7:0]`). -/
def highByte (w : Half) : Byte := w.extractLsb' 8 8

/-- The low byte of a u16. -/
def lowByte (w : Half) : Byte := w.extractLsb' 0 8

/-- The u32 of two word values, the first in the high bits (R29, R39). -/
def wideValue (hi lo : Half) : Word := hi ++ lo

end Sys2Proof.Machine
end

