-- ==== Sys2Proof/Decode.lean ====
section
/-! DEFINITION. Bits to operations and back: the request word (spec/30_encoding.md R41, R43, R45), and the wire's
DataWords and frames (R38 to R40). Decoding is total; what it rejects it rejects by name. -/

namespace Sys2Proof

/-! ### The request word -/

/-- The fields of a request word (R41). -/
def fieldsOf (w : Word) : Fields where
  op := w.extractLsb' 24 8
  b0 := w.extractLsb' 16 8
  b1 := w.extractLsb' 8 8
  ci := w.extractLsb' 0 8

/-- The request word with given fields: `{OP, B0, B1, CI}` (R41). -/
def wordOf (f : Fields) : Word := f.op ++ f.b0 ++ f.b1 ++ f.ci

/-- OP of GEN (R43). -/
def opGen : Byte := 0x01
/-- OP of VAL (R43). -/
def opVal : Byte := 0x02
/-- OP of CHK (R43). -/
def opChk : Byte := 0x03
/-- OP of LUT (R43). -/
def opLut : Byte := 0x04

/-- Why a request word is no operation. -/
inductive DecodeError where
  /-- OP is 0x00 or 0x05 to 0xFF (R45, R70). The step answers it in-band with ILLEGAL_OP. -/
  | reservedOp (op : Byte)
deriving DecidableEq, Repr

/-- What decoding a request word gives. -/
inductive Decoded where
  | instr (i : Instr)
  | rejected (e : DecodeError)
deriving DecidableEq, Repr

/-- The operation that a request's fields spell; OP alone selects it (R43). -/
def decodeFields (f : Fields) : Decoded :=
  if f.op = opGen then .instr (.gen f.b0 f.b1 f.ci)
  else if f.op = opVal then .instr (.val f.b0 f.b1 f.ci)
  else if f.op = opChk then .instr (.chk f.b0 f.b1 f.ci)
  else if f.op = opLut then .instr (.lut f.b0 f.b1 f.ci)
  else .rejected (.reservedOp f.op)

/-- The decoder, total on 32-bit words (R46: there is no other length). -/
def decode (w : Word) : Decoded := decodeFields (fieldsOf w)

/-- The fields of an operation's request. -/
def encodeFields : Instr → Fields
  | .gen b0 b1 ci => ⟨opGen, b0, b1, ci⟩
  | .val b0 b1 ci => ⟨opVal, b0, b1, ci⟩
  | .chk b0 b1 ci => ⟨opChk, b0, b1, ci⟩
  | .lut index b1 ci => ⟨opLut, index, b1, ci⟩

/-- The request word of an operation. -/
def encode (i : Instr) : Word := wordOf (encodeFields i)

/-- The 32-bit request word whose low `nbits` bits are those of `w` and whose other bits are 0. -/
def tableWord (nbits w : Nat) : Word := BitVec.ofNat 32 (w % 2 ^ nbits)

/-- The operation that the decoder reads from a word numbered as spec/opcode_table.json numbers it. -/
def decodeTableWord (nbits w : Nat) : Option Instr :=
  match decode (tableWord nbits w) with
  | .instr i => some i
  | .rejected _ => none

/-! ### The wire -/

/-- The packed 24-bit form `{b0, b1, crc}` (R38). -/
def packDataWord (d : DataWord) : BitVec 24 := d.b0 ++ d.b1 ++ d.crc

/-- The DataWord of a packed 24-bit form (R38). -/
def unpackDataWord (v : BitVec 24) : DataWord where
  b0 := v.extractLsb' 16 8
  b1 := v.extractLsb' 8 8
  crc := v.extractLsb' 0 8

/-- The DataWords of a byte sequence: word `k` is bytes `3k`, `3k+1`, `3k+2`, no padding (R30, R38). `none` where
bytes are left over. -/
def dataWords : List Byte → Option (List DataWord)
  | [] => some []
  | b0 :: b1 :: crc :: rest => (dataWords rest).map (⟨b0, b1, crc⟩ :: ·)
  | _ => none

/-- The bytes of a sequence of DataWords, in the order received. -/
def wireBytes : List DataWord → List Byte
  | [] => []
  | d :: ds => d.b0 :: d.b1 :: d.crc :: wireBytes ds

/-- How many DataWords a frame has (R39, R40). -/
def frameWords : FrameKind → Nat
  | .productId => 2
  | .measurement => 3

/-- The DataWords of a frame of one kind, `none` where the length is another (R39: 6 bytes, R40: 9 bytes). -/
def parseFrame (k : FrameKind) (bytes : List Byte) : Option (List DataWord) :=
  if bytes.length = 3 * frameWords k then dataWords bytes else none

end Sys2Proof
end

