-- ==== Sys2Proof/Config.lean ====
section
/-! DEFINITION. What an implementation fixes: the two parameters the spec leaves OPEN
(spec/92_eei_decisions.md D13 and D23). No value is chosen here; the step carries the record
in State and never writes it, so a statement about every state holds for every choice. -/

namespace Sys2Proof

/-- `REALIZATION` (R8): which of the two realizations computes the byte step. -/
inductive Realization where
  | bitwise
  | table
deriving DecidableEq, Repr

/-- The implementation's parameters. -/
structure Config where
  /-- `REALIZATION` (R8, R56). No response depends on it (R55). -/
  realization : Realization
  /-- `BLOCK_BASE` (D23): where a platform maps the block, `none` where it maps it nowhere.
  No rule reads it (spec/93_implementation_defined.md I7). -/
  blockBase : Option Nat
deriving DecidableEq, Repr

end Sys2Proof
end

