-- ==== Sys2Proof/Machine/Crc.lean ====
section
/-! DEFINITION. The CRC-8 algorithm: the bit step, the byte step in its two realizations, the table, the checksum
(spec/40_crc8_algorithm.md R50 to R58). -/

namespace Sys2Proof.Machine

/-- POLY (R50). -/
def poly : Byte := 0x31

/-- INIT (R50): the accumulator before the first byte. -/
def initValue : Byte := 0xFF

/-- BitStep (R51): the bit tested is bit 7 before the shift. -/
def bitStep (r : Byte) : Byte :=
  if r.getLsbD 7 then (r <<< 1) ^^^ poly else r <<< 1

/-- BitStep applied `n` times. -/
def bitSteps : Nat → Byte → Byte
  | 0, r => r
  | n + 1, r => bitSteps n (bitStep r)

/-- ByteStepBitwise (R52). -/
def byteStepBitwise (r b : Byte) : Byte := bitSteps 8 (r ^^^ b)

/-- T (R53, R89): 256 entries, generated from the bitwise form. -/
def table : List Byte := (List.range 256).map fun i => byteStepBitwise 0x00 (BitVec.ofNat 8 i)

/-- T has an entry for every 8-bit index (R24). -/
theorem index_lt_table_length (i : Byte) : i.toNat < table.length := by
  simpa [table] using i.isLt

/-- `Rom(i)` (R11): the one memory read the block has. It moves 8 bits and changes nothing (R31). -/
def rom (i : Byte) : Byte := table[i.toNat]'(index_lt_table_length i)

/-- ByteStepTable (R54). -/
def byteStepTable (r b : Byte) : Byte := rom (r ^^^ b)

/-- ByteStep (R56): the realization's own. The two agree for all bytes (R55): `byteStep_eq_bitSteps`. -/
def byteStep : Realization → Byte → Byte → Byte
  | .bitwise, r, b => byteStepBitwise r b
  | .table, r, b => byteStepTable r b

/-- `Rom(i)` as an implementation serves it (R15): the physical table, or the bitwise form where it holds none. -/
def romRead : Realization → Byte → Byte
  | .bitwise, i => byteStepBitwise 0x00 i
  | .table, i => rom i

/-- crc8 (R57, R58): INIT, then `b0`, then `b1`; no reflection and no final XOR. -/
def crc8 (ρ : Realization) (b0 b1 : Byte) : Byte :=
  byteStep ρ (byteStep ρ initValue b0) b1

end Sys2Proof.Machine
end

