-- ==== Sys2Proof/Machine/Flags.lean ====
section
/-! DEFINITION. The response's result bits and its word. The block stores no flag: OK and ERR are fields of one response
(spec/10_state.md R20, spec/30_encoding.md R42, spec/60_exceptions.md R77). -/

namespace Sys2Proof.Machine

/-- OK of VAL and CHK: the computed checksum equals the received CRC byte (R42, R67, R68). -/
def okFlag (computed received : Byte) : Bool := computed == received

/-- The code of ERR (R77). -/
def errCode : Err → BitVec 2
  | .noError => 0
  | .badChecksum => 1
  | .illegalOp => 2

/-- The fields before an operation sets any of them (R65). -/
def defaultResponse : Response where
  crc := 0x00
  data := 0x0000
  ok := false
  err := .noError

/-- The response word `{0b00000, ERR, OK, DATA, CRC}` (R42, R65). -/
def packResponse (r : Response) : Word :=
  0b00000#5 ++ errCode r.err ++ BitVec.ofBool r.ok ++ r.data ++ r.crc

/-- CRC of a response word, bits 7:0 (R42). -/
def crcField (w : Word) : Byte := w.extractLsb' 0 8

/-- DATA of a response word, bits 23:8 (R42). -/
def dataField (w : Word) : Half := w.extractLsb' 8 16

/-- OK of a response word, bit 24 (R42). -/
def okField (w : Word) : Bool := w.getLsbD 24

/-- ERR of a response word, bits 26:25 (R42). -/
def errField (w : Word) : BitVec 2 := w.extractLsb' 25 2

/-- Bits 31:27 of a response word, always 0 (R42). -/
def zeroField (w : Word) : BitVec 5 := w.extractLsb' 27 5

end Sys2Proof.Machine
end

