-- ==== Sys2Proof/Machine/State.lean ====
section
/-! DEFINITION. The machine's state, its reasons to stop, and the state after reset (spec/10_state.md). -/

namespace Sys2Proof.Machine

/-- What the machine holds between two transactions. The block itself has no persistent state (R13): `config` is the
implementation's, `requests` and `responses` are its interface as the requester sees it (R16, R33), and `acc` is the
transient accumulator. The table T is no field: it is the constant `Sys2Proof.Machine.table` (R89). -/
structure State where
  /-- The parameters of R8 and D23, written by no step. -/
  config    : Config
  /-- ACC (R14): `none` between operations, where R23 says it is "not applicable". -/
  acc       : Option Byte
  /-- Request words issued and not yet performed, oldest first (R33). -/
  requests  : List Word
  /-- Response words given back, oldest first (R33). No step reads them. -/
  responses : List Word
deriving DecidableEq, Repr

/-- The reasons to stop with a fault. There is none: every error is in-band, and the block takes no trap
(R76, R83). -/
inductive Fault where
deriving DecidableEq, Repr

/-- The reasons to stop without a meaning. -/
inductive Refusal where
  /-- An operation without a meaning yet. Raised by arms of `exec` only, and no arm raises it. Safe. -/
  | notModelled (mnemonic : String)
deriving DecidableEq, Repr

/-- The state after reset of an implementation with parameters `c` (R23, R87): no accumulator, nothing issued,
nothing answered. -/
def State.resetWith (c : Config) : State where
  config := c
  acc := none
  requests := []
  responses := []

/-- DESIGN CHOICE (log entries 5 and 6): the parameters of the state `State.reset`. The spec leaves both OPEN. -/
def defaultConfig : Config where
  realization := .bitwise
  blockBase := none

/-- The machine right after reset. -/
def State.reset : State := State.resetWith defaultConfig

end Sys2Proof.Machine
end

