-- ==== Sys2Proof/Machine/Ops.lean ====
section
/-! DEFINITION. The named operations over the state: the interface, the accumulator, raising an error, reset. -/

namespace Sys2Proof.Machine

/-! ### The interface (R16, R33) -/

/-- A requester issues a request: an event from outside, at any time, behind what is already pending. -/
def issue (w : Word) (s : State) : State := { s with requests := s.requests ++ [w] }

/-- The oldest pending request, and the state once the block has taken it: the request word is not kept (R16). -/
def takeRequest (s : State) : Option (Word × State) :=
  match s.requests with
  | [] => none
  | w :: rest => some (w, { s with requests := rest })

/-- Presents a request ahead of every other, so that it is the next one performed (log entry 7). -/
def presentFirst (w : Word) (s : State) : State := { s with requests := w :: s.requests }

/-- The block gives its response: after every earlier one (R33). -/
def respond (r : Response) (s : State) : State :=
  { s with responses := s.responses ++ [packResponse r] }

/-- A step while no request is pending: no transaction, nothing changes. DESIGN CHOICE (log entry 2). -/
def idle (s : State) : Host.Outcome State Fault Refusal := .next s

/-! ### The accumulator (R14, R91) -/

/-- ACC <- INIT, whatever it held: every checksum starts fresh (R91). -/
def accStart (s : State) : State := { s with acc := some initValue }

/-- ACC <- ByteStep(ACC, b), by the implementation's realization (R56). -/
def accByte (b : Byte) (s : State) : State :=
  { s with acc := s.acc.map fun r => byteStep s.config.realization r b }

/-- The value of ACC within an operation; INIT where no operation is running, which no operation meets. -/
def accValue (s : State) : Byte := s.acc.getD initValue

/-- ACC is discarded at the end of the operation (R14). -/
def accDiscard (s : State) : State := { s with acc := none }

/-- The run of crc8 on the accumulator (R57): the checksum, and the state with ACC discarded. -/
def checksum (b0 b1 : Byte) (s : State) : Byte × State :=
  let ended := accByte b1 (accByte b0 (accStart s))
  (accValue ended, accDiscard ended)

/-! ### Errors (R76) -/

/-- Raising an error (R11, R76): ERR carries it, no data value and no OK go with it, and CRC stays what the operation
computed (R78). It saves nothing, changes no mode and goes nowhere (R83), so nothing returns from it (R84). -/
def raiseError (e : Err) (r : Response) : Response :=
  { r with err := e, ok := false, data := 0x0000 }

/-! ### Reset (R87) -/

/-- A reset of the block while requesters are there: ACC is gone, and nothing they can see changes
(log entry 11). -/
def resetBlock (s : State) : State := { s with acc := none }

end Sys2Proof.Machine
end

