-- ==== Sys2Proof/Machine/Checksum.lean ====
section
/-! DEFINITION. The operations that compute a checksum: GEN, VAL, CHK (spec/41_crc8_operations.md R66 to R68). -/

namespace Sys2Proof.Machine

/-- The response of GEN to a computed checksum (R66). -/
def genResponse (c : Byte) : Response := { defaultResponse with crc := c }

/-- The response of VAL (R67): a mismatch is a result, not an error. -/
def valResponse (c ci : Byte) : Response := { defaultResponse with crc := c, ok := okFlag c ci }

/-- The response of CHK (R68): the value of a valid DataWord, or BadChecksum and no data. -/
def chkResponse (c b0 b1 ci : Byte) : Response :=
  if okFlag c ci then { defaultResponse with crc := c, ok := true, data := dataValue b0 b1 }
  else raiseError .badChecksum { defaultResponse with crc := c }

/-- GEN (R66). CI is not read (R45). -/
def execGen (b0 b1 _ci : Byte) (s : State) : Host.Outcome State Fault Refusal :=
  let run := checksum b0 b1 s
  .next (respond (genResponse run.1) run.2)

/-- VAL (R67). -/
def execVal (b0 b1 ci : Byte) (s : State) : Host.Outcome State Fault Refusal :=
  let run := checksum b0 b1 s
  .next (respond (valResponse run.1 ci) run.2)

/-- CHK (R68). -/
def execChk (b0 b1 ci : Byte) (s : State) : Host.Outcome State Fault Refusal :=
  let run := checksum b0 b1 s
  .next (respond (chkResponse run.1 b0 b1 ci) run.2)

end Sys2Proof.Machine
end

