-- ==== Sys2Proof/Machine/Lookup.lean ====
section
/-! DEFINITION. The operation that reads the table: LUT (spec/41_crc8_operations.md R69). -/

namespace Sys2Proof.Machine

/-- LUT (R69). B1 and CI are not read (R45), and ACC is not used (R14). -/
def execLut (index _b1 _ci : Byte) (s : State) : Host.Outcome State Fault Refusal :=
  .next (respond { defaultResponse with crc := romRead s.config.realization index } s)

end Sys2Proof.Machine
end

