-- ==== Sys2Proof/Machine/Dispatch.lean ====
section
/-! DEFINITION. One arm per operation (spec/41_crc8_operations.md R65). -/

namespace Sys2Proof.Machine

def exec (i : Instr) (s : State) : Host.Outcome State Fault Refusal :=
  match i with
  | .gen b0 b1 ci => Sys2Proof.Machine.execGen b0 b1 ci s
  | .val b0 b1 ci => Sys2Proof.Machine.execVal b0 b1 ci s
  | .chk b0 b1 ci => Sys2Proof.Machine.execChk b0 b1 ci s
  | .lut index b1 ci => Sys2Proof.Machine.execLut index b1 ci s

end Sys2Proof.Machine
end

