-- ==== Sys2Proof/Machine/Reserved.lean ====
section
/-! DEFINITION. A request with a reserved OP (spec/41_crc8_operations.md R70). -/

namespace Sys2Proof.Machine

/-- The block's answer to a request that is no operation: IllegalOp, whatever bits 23:0 hold, and no checksum is
computed (R70, R79, R81). -/
def execRejected : DecodeError → State → Host.Outcome State Fault Refusal
  | .reservedOp _, s => .next (respond (raiseError .illegalOp defaultResponse) s)

end Sys2Proof.Machine
end

