-- ==== Sys2Proof/Machine/Step.lean ====
section
/-! DEFINITION. One step is one transaction (spec/10_state.md R16, spec/70_reset_and_hazards.md R93). -/

namespace Sys2Proof.Machine

/-- The block performs the oldest pending request, whole (R33, R94). -/
def step (s : State) : Host.Outcome State Fault Refusal :=
  match takeRequest s with
  | none => idle s
  | some (w, taken) =>
    match decode w with
    | .instr i => exec i taken
    | .rejected e => execRejected e taken

/-- The state with one more request, which the very next step performs (log entry 7). -/
def State.withFetchWord (s : State) (nbits w : Nat) : State := presentFirst (tableWord nbits w) s

end Sys2Proof.Machine
end

