-- ==== Sys2Proof/WellFormed.lean ====
section
/-! DEFINITION. Which terms of Syntax are legal. -/

namespace Sys2Proof

/-- A request's fields spell an operation exactly when OP is 0x01 to 0x04 (R43, R45). -/
def Fields.wellFormed (f : Fields) : Bool :=
  decide (1 ≤ f.op.toNat) && decide (f.op.toNat ≤ 4)

/-- Every operand is a byte taken as it stands (R44), and any value of a don't-care field is legal (R45):
the types of the operands are the whole check. -/
def Instr.wellFormed : Instr → Bool
  | .gen _ _ _ => true
  | .val _ _ _ => true
  | .chk _ _ _ => true
  | .lut _ _ _ => true

/-- A byte literal of the assembler (R47): 0..255. -/
def byteLiteral (n : Nat) : Bool := decide (n < 256)

/-- A u16 literal of a pseudo-operation (R48). -/
def halfLiteral (n : Nat) : Bool := decide (n < 65536)

/-- A line the assembler accepts (R47, R48): every literal in its range, and for CHKF one to three words of
three bytes each. -/
def Asm.wellFormed : Asm → Bool
  | .gen b0 b1 => byteLiteral b0 && byteLiteral b1
  | .val b0 b1 c => byteLiteral b0 && byteLiteral b1 && byteLiteral c
  | .chk b0 b1 c => byteLiteral b0 && byteLiteral b1 && byteLiteral c
  | .lut i => byteLiteral i
  | .req w => decide (w < 2 ^ 32)
  | .genw w => halfLiteral w
  | .valw w c => halfLiteral w && byteLiteral c
  | .chkw w c => halfLiteral w && byteLiteral c
  | .chkf n bytes =>
    decide (1 ≤ n) && decide (n ≤ 3) && decide (bytes.length = 3 * n) && bytes.all byteLiteral

end Sys2Proof
end

