-- ==== Sys2Proof/Machine/Assembler.lean ====
section
/-! DEFINITION. The assembler (spec/30_encoding.md R47, R48): a line to its requests, and text to lines. What R47 does not
say of the text (blanks, case, how many digits, an empty line, a line beginning `=>`, what a bad line does to the rest of the
text) is DESIGN CHOICE, log entry 10. -/

namespace Sys2Proof.Machine

/-- Why a text spells no request. -/
inductive AsmError where
  /-- The line is none of the forms of R47 and R48. -/
  | notALine
  /-- A literal is out of its range, or CHKF's count does not fit its bytes (R47, R48). -/
  | notWellFormed
deriving DecidableEq, Repr

/-! ### A line to requests -/

/-- The byte of a literal in range. -/
def literalByte (n : Nat) : Byte := BitVec.ofNat 8 n

/-- The CHK operations of a frame's bytes, three at a time in frame order (R48). -/
def expandFrame : List Nat → List Instr
  | x0 :: x1 :: x2 :: rest => .chk (literalByte x0) (literalByte x1) (literalByte x2) :: expandFrame rest
  | _ => []

/-- The request words of a well-formed line, 0x00 in every don't-care field (R47, R48). -/
def expandAsm : Asm → List Word
  | .gen b0 b1 => [encode (.gen (literalByte b0) (literalByte b1) 0x00)]
  | .val b0 b1 c => [encode (.val (literalByte b0) (literalByte b1) (literalByte c))]
  | .chk b0 b1 c => [encode (.chk (literalByte b0) (literalByte b1) (literalByte c))]
  | .lut i => [encode (.lut (literalByte i) 0x00 0x00)]
  | .req w => [BitVec.ofNat 32 w]
  | .genw w => [encode (.gen (highByte (BitVec.ofNat 16 w)) (lowByte (BitVec.ofNat 16 w)) 0x00)]
  | .valw w c => [encode (.val (highByte (BitVec.ofNat 16 w)) (lowByte (BitVec.ofNat 16 w)) (literalByte c))]
  | .chkw w c => [encode (.chk (highByte (BitVec.ofNat 16 w)) (lowByte (BitVec.ofNat 16 w)) (literalByte c))]
  | .chkf _ bytes => (expandFrame bytes).map encode

/-- The requests of a line; a literal out of range is an error and spells none (R47). -/
def assemble (a : Asm) : Except AsmError (List Word) :=
  if a.wellFormed then .ok (expandAsm a) else .error .notWellFormed

/-! ### Text to a line -/

/-- A space or a tab. -/
def isBlank (c : Char) : Bool := c == ' ' || c == '\t'

/-- The text without its outer blanks. -/
def trimBlanks (cs : List Char) : List Char :=
  ((cs.dropWhile isBlank).reverse.dropWhile isBlank).reverse

/-- The pieces of a text between the separators. -/
def splitAt (sep : Char) : List Char → List (List Char)
  | [] => [[]]
  | c :: cs =>
    match splitAt sep cs with
    | [] => [[]]
    | piece :: pieces => if c == sep then [] :: piece :: pieces else (c :: piece) :: pieces

/-- The value of a digit, hexadecimal ones included. -/
def digitValue (c : Char) : Option Nat :=
  if 48 ≤ c.toNat ∧ c.toNat ≤ 57 then some (c.toNat - 48)
  else if 65 ≤ c.toNat ∧ c.toNat ≤ 70 then some (c.toNat - 55)
  else if 97 ≤ c.toNat ∧ c.toNat ≤ 102 then some (c.toNat - 87)
  else none

/-- The number that digits of one base spell after the value read so far. -/
def readDigits (base : Nat) : Nat → List Char → Option Nat
  | n, [] => some n
  | n, c :: cs =>
    match digitValue c with
    | some d => if d < base then readDigits base (base * n + d) cs else none
    | none => none

/-- A literal: `0x` and hexadecimal digits, or decimal digits (R47). -/
def readLiteral : List Char → Option Nat
  | '0' :: 'x' :: d :: ds => readDigits 16 0 (d :: ds)
  | d :: ds => readDigits 10 0 (d :: ds)
  | [] => none

/-- Every piece as a literal, or nothing where one is none. -/
def readLiterals : List (List Char) → Option (List Nat)
  | [] => some []
  | p :: ps =>
    match readLiteral (trimBlanks p), readLiterals ps with
    | some n, some ns => some (n :: ns)
    | _, _ => none

/-- The form that a mnemonic and its operands spell (R47, R48). -/
def lineForm (mnemonic : List Char) (operands : List Nat) : Option Asm :=
  match mnemonic, operands with
  | ['G', 'E', 'N'], [b0, b1] => some (.gen b0 b1)
  | ['V', 'A', 'L'], [b0, b1, c] => some (.val b0 b1 c)
  | ['C', 'H', 'K'], [b0, b1, c] => some (.chk b0 b1 c)
  | ['L', 'U', 'T'], [i] => some (.lut i)
  | ['.', 'r', 'e', 'q'], [w] => some (.req w)
  | ['G', 'E', 'N', 'W'], [w] => some (.genw w)
  | ['V', 'A', 'L', 'W'], [w, c] => some (.valw w c)
  | ['C', 'H', 'K', 'W'], [w, c] => some (.chkw w c)
  | ['C', 'H', 'K', 'F'], n :: bytes => some (.chkf n bytes)
  | _, _ => none

/-- The requests of one line of text: a `;` begins a comment (R47). DESIGN CHOICE (log entry 10): a line that holds nothing
else spells no request. -/
def assembleLine (line : List Char) : Except AsmError (List Word) :=
  let code := trimBlanks (line.takeWhile fun c => c != ';')
  if code.isEmpty then .ok []
  else
    let mnemonic := code.takeWhile fun c => !isBlank c
    let operands := code.dropWhile fun c => !isBlank c
    match readLiterals (splitAt ',' operands) with
    | none => .error .notALine
    | some ns =>
      match lineForm mnemonic ns with
      | none => .error .notALine
      | some a => assemble a

/-- The requests of lines, in order. DESIGN CHOICE (log entry 10): one bad line makes the whole text an error, the first
bad line's, and the good lines give no requests; R47 says only that a literal out of range is an assembly error and
spells no request. -/
def assembleLines : List (List Char) → Except AsmError (List Word)
  | [] => .ok []
  | line :: rest =>
    match assembleLine line, assembleLines rest with
    | .ok ws, .ok more => .ok (ws ++ more)
    | .error e, _ => .error e
    | _, .error e => .error e

/-- The requests of a program's text, one line each (R47, spec/95_test_vectors.md section 3); a text with a bad line is an
error, see `assembleLines`. DESIGN CHOICE (log entry 10): a line beginning `=>`, in which that section writes the
requester's decision, is no line of R47 or R48, so here it is a bad line like any other. -/
def assembleText (text : List Char) : Except AsmError (List Word) := assembleLines (splitAt '\n' text)

end Sys2Proof.Machine
end

