-- ==== Sys2Proof/Machine/Perform.lean ====
section
/-! DEFINITION. Perform (spec/41_crc8_operations.md R65): the total function from a request word to a response word that the
spec says the block is (spec/10_state.md R13). It is written from R65's own text, with no state; the machine's step, which
runs an accumulator and a queue, is stated equal to it. -/

namespace Sys2Proof.Machine

/-- The response fields of a request (R65 to R70), ACC local to crc8 as in R57. -/
def performFields (ρ : Realization) (f : Fields) : Response :=
  let c := crc8 ρ f.b0 f.b1
  if f.op = 0x01 then
    { crc := c, data := 0x0000, ok := false, err := .noError }
  else if f.op = 0x02 then
    { crc := c, data := 0x0000, ok := decide (c = f.ci), err := .noError }
  else if f.op = 0x03 then
    if c = f.ci then { crc := c, data := f.b0 ++ f.b1, ok := true, err := .noError }
    else { crc := c, data := 0x0000, ok := false, err := .badChecksum }
  else if f.op = 0x04 then
    { crc := rom f.b0, data := 0x0000, ok := false, err := .noError }
  else { crc := 0x00, data := 0x0000, ok := false, err := .illegalOp }

/-- Perform(req) (R65). -/
def perform (ρ : Realization) (req : Word) : Word := packResponse (performFields ρ (fieldsOf req))

end Sys2Proof.Machine
end

