-- ==== Sys2Proof/Machine/Frame.lean ====
section
/-! DEFINITION. Words and frames on the requester's side: validity of a DataWord (spec/30_encoding.md R38), FrameCheck
(spec/41_crc8_operations.md R71), and the ProductId of a frame (R39). -/

namespace Sys2Proof.Machine

/-- A DataWord is valid iff its CRC byte is the checksum of its data bytes (R38). -/
def validWord (ρ : Realization) (d : DataWord) : Bool := crc8 ρ d.b0 d.b1 == d.crc

/-- The request that checks a received word: its three bytes under the OP of CHK (R41, R71). -/
def chkRequest (d : DataWord) : Word := encode (.chk d.b0 d.b1 d.crc)

/-- The result of FrameCheck (R71). It does not say which word failed (D21). -/
inductive FrameResult where
  | ok (values : List Half)
  | badChecksum
deriving DecidableEq, Repr

/-- The all-or-nothing reading of the responses to a frame's CHK requests (R71). -/
def combineResponses (rs : List Word) : FrameResult :=
  if rs.all okField then .ok (rs.map dataField) else .badChecksum

/-- FrameCheck (R71): CHK on each word in frame order. -/
def frameCheck (ρ : Realization) (ds : List DataWord) : FrameResult :=
  combineResponses (ds.map fun d => perform ρ (chkRequest d))

/-- FrameCheck by a requester that stops at the first failing word (R71: the result is the same). -/
def frameCheckStopping (ρ : Realization) : List DataWord → FrameResult
  | [] => .ok []
  | d :: ds =>
    let r := perform ρ (chkRequest d)
    if okField r then
      match frameCheckStopping ρ ds with
      | .ok values => .ok (dataField r :: values)
      | .badChecksum => .badChecksum
    else .badChecksum

/-- FrameCheck of the bytes of a frame of one kind (R39, R40); `none` where they are no such frame. -/
def frameCheckBytes (ρ : Realization) (k : FrameKind) (bytes : List Byte) : Option FrameResult :=
  (parseFrame k bytes).map (frameCheck ρ)

/-- The ProductId of a checked 2-word frame, part 1 in the high bits (R29, R39, R71). -/
def productId : FrameResult → Option Word
  | .ok [part1, part2] => some (wideValue part1 part2)
  | _ => none

end Sys2Proof.Machine
end

