-- ==== Sys2Proof/Safety.lean ====
section
/-! DEFINITION. What claims about the machine are stated in: legal responses, the invariant between transactions, the
requester's duty, and error patterns on a DataWord. -/

namespace Sys2Proof.Safety

open Sys2Proof.Machine

/-- A response word the block may give (R42, R77): bits 31:27 are 0; ERR is no reserved code; OK goes with no error;
ILLEGAL_OP goes with nothing else; and a value in an error-free DATA comes with OK and with its own checksum. It
says nothing of DATA beside BAD_CHECKSUM (spec/93_implementation_defined.md I6). -/
def legalResponse (r : Word) : Bool :=
  zeroField r == 0 && errField r != 3
    && (!okField r || errField r == 0)
    && (errField r != 2 || r == 0x04000000)
    && (errField r != 0 || dataField r == 0
        || (okField r && crc8 .bitwise (highByte (dataField r)) (lowByte (dataField r)) == crcField r))

/-- What holds between two transactions: ACC is discarded (R14, R23), and every response given is legal. -/
structure Inv (s : State) : Prop where
  accDiscarded : s.acc = none
  responsesLegal : ∀ r ∈ s.responses, legalResponse r = true

/-- The requester's duty for one word (R92): its value may be used only after a CHK or a VAL of its three bytes
answered OK = 1. -/
def mayUseValue (request response : Word) : Bool :=
  ((fieldsOf request).op == opChk || (fieldsOf request).op == opVal) && okField response

/-- The requester's duty for a frame (R92): no value unless every word of the frame passed. -/
def mayUseFrame (exchanges : List (Word × Word)) : Bool :=
  exchanges.all fun e => mayUseValue e.1 e.2

/-- How many bits an error pattern flips. -/
def weight (e : BitVec 24) : Nat := (List.range 24).countP fun k => e.getLsbD k

/-- A burst of up to 8 adjacent bits (R62). -/
def burst8 (e : BitVec 24) : Prop := e ≠ 0 ∧ ∃ (k : Nat) (b : Byte), e = b.setWidth 24 <<< k

/-- The checksum of a 16-bit word (R60). -/
def crcOf (ρ : Realization) (w : Half) : Byte := crc8 ρ (highByte w) (lowByte w)

end Sys2Proof.Safety
end

