-- ==== Sys2Proof/Certificates/Slice0/Obligations.lean ====
section
/-! DEFINITION. The statements for the provers, each from a numbered rule of spec/. -/

open Sys2Proof Sys2Proof.Machine Sys2Proof.Safety

/-! ### Encoding -/

/-- R49's table, row by row: what a line assembles to, and what that request word is answered, under either
realization. -/
def Obligations.WorkedEncodingsAnswered : Prop :=
  ∀ ρ : Realization,
    (assemble (.gen 0xBE 0xEF) = .ok [0x01BEEF00] ∧ perform ρ 0x01BEEF00 = 0x00000092) ∧
    (assemble (.val 0xBE 0xEF 0x92) = .ok [0x02BEEF92] ∧ perform ρ 0x02BEEF92 = 0x01000092) ∧
    (assemble (.chk 0xBE 0xEF 0x92) = .ok [0x03BEEF92] ∧ perform ρ 0x03BEEF92 = 0x01BEEF92) ∧
    (assemble (.chk 0xBE 0xEF 0x93) = .ok [0x03BEEF93] ∧ perform ρ 0x03BEEF93 = 0x02000092) ∧
    (assemble (.lut 0xFF) = .ok [0x04FF0000] ∧ perform ρ 0x04FF0000 = 0x000000AC) ∧
    (assemble (.req 0x00123456) = .ok [0x00123456] ∧ perform ρ 0x00123456 = 0x04000000)

/-- One word of each operation, and two reserved ones, written out from R41 and R43. -/
def Obligations.WrittenWordsDecode : Prop :=
  decode 0b00000001101111101110111100000000#32 = .instr (.gen 0xBE 0xEF 0x00) ∧
  decode 0b00000010101111101110111110010010#32 = .instr (.val 0xBE 0xEF 0x92) ∧
  decode 0b00000011101111101110111110010011#32 = .instr (.chk 0xBE 0xEF 0x93) ∧
  decode 0b00000100010000010000000000000000#32 = .instr (.lut 0x41 0x00 0x00) ∧
  decode 0b00000000000100100011010001010110#32 = .rejected (.reservedOp 0x00) ∧
  decode 0b00000101101111101110111110010010#32 = .rejected (.reservedOp 0x05)

/-- Decode and encode agree, both ways: no bit of a request is dropped, the don't-care bytes included (R41, R43). -/
def Obligations.DecodeEncodeAgree : Prop :=
  (∀ i : Instr, i.wellFormed = true → decode (encode i) = .instr i) ∧
  ∀ (w : Word) (i : Instr), decode w = .instr i → encode i = w

/-- R43: bits 31:24 alone select the operation, for every value of bits 23:0, and every other OP is reserved. -/
def Obligations.OpcodeMapSelectsOperation : Prop :=
  (∀ b0 b1 ci : Byte,
    decode (0x01#8 ++ b0 ++ b1 ++ ci) = .instr (.gen b0 b1 ci) ∧
    decode (0x02#8 ++ b0 ++ b1 ++ ci) = .instr (.val b0 b1 ci) ∧
    decode (0x03#8 ++ b0 ++ b1 ++ ci) = .instr (.chk b0 b1 ci) ∧
    decode (0x04#8 ++ b0 ++ b1 ++ ci) = .instr (.lut b0 b1 ci)) ∧
  ∀ op b0 b1 ci : Byte, (op = 0x00 ∨ 0x05 ≤ op.toNat) →
    decode (op ++ b0 ++ b1 ++ ci) = .rejected (.reservedOp op)

/-- R41: the request's four fields, and a received DataWord in bits 23:0 exactly as packed (R38). -/
def Obligations.RequestPayloadIsPackedDataWord : Prop :=
  (∀ op b0 b1 ci : Byte, fieldsOf (op ++ b0 ++ b1 ++ ci) = ⟨op, b0, b1, ci⟩) ∧
  (∀ (op : Byte) (d : DataWord), fieldsOf (op ++ packDataWord d) = ⟨op, d.b0, d.b1, d.crc⟩) ∧
  (∀ d : DataWord, unpackDataWord (packDataWord d) = d) ∧
  (∀ d : DataWord, encode (.val d.b0 d.b1 d.crc) = 0x02#8 ++ packDataWord d ∧
    chkRequest d = 0x03#8 ++ packDataWord d)

/-- Bytes parse as a frame of a kind exactly when they are its words' bytes, and as many words as the kind has
(R38 to R40). That bytes of any other length parse to none, a case the spec does not state, is the model's choice
(log entry 14). -/
def Obligations.FrameBytesAreItsWords : Prop :=
  ∀ (k : FrameKind) (bytes : List Byte) (ds : List DataWord),
    parseFrame k bytes = some ds ↔ bytes = wireBytes ds ∧ ds.length = frameWords k

/-- The five fields of a response word read back what the response holds, and bits 31:27 are 0 (R42). -/
def Obligations.ResponseFieldsReadBack : Prop :=
  ∀ r : Response,
    crcField (packResponse r) = r.crc ∧ dataField (packResponse r) = r.data ∧
    okField (packResponse r) = r.ok ∧ errField (packResponse r) = errCode r.err ∧
    zeroField (packResponse r) = 0

/-! ### The algorithm -/

/-- R51 in nine bits: shifted left, and the whole polynomial 0x131 folded in exactly when bit 7 was 1; with R51's
corner cases. -/
def Obligations.BitStepFoldsShiftedOutBit : Prop :=
  (∀ r : Byte, (bitStep r).setWidth 9 = (r.setWidth 9 <<< 1) ^^^ (if r.getLsbD 7 then 0x131#9 else 0#9)) ∧
  bitStep 0x00 = 0x00 ∧ bitStep 0x80 = 0x31 ∧ bitStep 0xFF = 0xCF ∧ bitStep 0x7F = 0xFE ∧ bitStep 0x41 = 0x82

/-- R59: the table, entry by entry. -/
def Obligations.TableHoldsListedEntries : Prop :=
  table =
    [0x00, 0x31, 0x62, 0x53, 0xC4, 0xF5, 0xA6, 0x97, 0xB9, 0x88, 0xDB, 0xEA, 0x7D, 0x4C, 0x1F, 0x2E] ++
    [0x43, 0x72, 0x21, 0x10, 0x87, 0xB6, 0xE5, 0xD4, 0xFA, 0xCB, 0x98, 0xA9, 0x3E, 0x0F, 0x5C, 0x6D] ++
    [0x86, 0xB7, 0xE4, 0xD5, 0x42, 0x73, 0x20, 0x11, 0x3F, 0x0E, 0x5D, 0x6C, 0xFB, 0xCA, 0x99, 0xA8] ++
    [0xC5, 0xF4, 0xA7, 0x96, 0x01, 0x30, 0x63, 0x52, 0x7C, 0x4D, 0x1E, 0x2F, 0xB8, 0x89, 0xDA, 0xEB] ++
    [0x3D, 0x0C, 0x5F, 0x6E, 0xF9, 0xC8, 0x9B, 0xAA, 0x84, 0xB5, 0xE6, 0xD7, 0x40, 0x71, 0x22, 0x13] ++
    [0x7E, 0x4F, 0x1C, 0x2D, 0xBA, 0x8B, 0xD8, 0xE9, 0xC7, 0xF6, 0xA5, 0x94, 0x03, 0x32, 0x61, 0x50] ++
    [0xBB, 0x8A, 0xD9, 0xE8, 0x7F, 0x4E, 0x1D, 0x2C, 0x02, 0x33, 0x60, 0x51, 0xC6, 0xF7, 0xA4, 0x95] ++
    [0xF8, 0xC9, 0x9A, 0xAB, 0x3C, 0x0D, 0x5E, 0x6F, 0x41, 0x70, 0x23, 0x12, 0x85, 0xB4, 0xE7, 0xD6] ++
    [0x7A, 0x4B, 0x18, 0x29, 0xBE, 0x8F, 0xDC, 0xED, 0xC3, 0xF2, 0xA1, 0x90, 0x07, 0x36, 0x65, 0x54] ++
    [0x39, 0x08, 0x5B, 0x6A, 0xFD, 0xCC, 0x9F, 0xAE, 0x80, 0xB1, 0xE2, 0xD3, 0x44, 0x75, 0x26, 0x17] ++
    [0xFC, 0xCD, 0x9E, 0xAF, 0x38, 0x09, 0x5A, 0x6B, 0x45, 0x74, 0x27, 0x16, 0x81, 0xB0, 0xE3, 0xD2] ++
    [0xBF, 0x8E, 0xDD, 0xEC, 0x7B, 0x4A, 0x19, 0x28, 0x06, 0x37, 0x64, 0x55, 0xC2, 0xF3, 0xA0, 0x91] ++
    [0x47, 0x76, 0x25, 0x14, 0x83, 0xB2, 0xE1, 0xD0, 0xFE, 0xCF, 0x9C, 0xAD, 0x3A, 0x0B, 0x58, 0x69] ++
    [0x04, 0x35, 0x66, 0x57, 0xC0, 0xF1, 0xA2, 0x93, 0xBD, 0x8C, 0xDF, 0xEE, 0x79, 0x48, 0x1B, 0x2A] ++
    [0xC1, 0xF0, 0xA3, 0x92, 0x05, 0x34, 0x67, 0x56, 0x78, 0x49, 0x1A, 0x2B, 0xBC, 0x8D, 0xDE, 0xEF] ++
    [0x82, 0xB3, 0xE0, 0xD1, 0x46, 0x77, 0x24, 0x15, 0x3B, 0x0A, 0x59, 0x68, 0xFF, 0xCE, 0x9D, 0xAC]

/-- R55: the two realizations of the byte step are equal, so crc8 is too for every two bytes. -/
def Obligations.RealizationsAgree : Prop :=
  (∀ r b : Byte, byteStepTable r b = byteStepBitwise r b) ∧
  ∀ b0 b1 : Byte, crc8 .table b0 b1 = crc8 .bitwise b0 b1

/-- R57: the closed form, the corner cases, and that neither an all-zero nor an all-ones DataWord is valid. -/
def Obligations.ChecksumClosedForm : Prop :=
  ∀ ρ : Realization,
    (∀ b0 b1 : Byte, crc8 ρ b0 b1 = rom (rom (0xFF ^^^ b0) ^^^ b1)) ∧
    crc8 ρ 0x00 0x00 = 0x81 ∧ crc8 ρ 0xFF 0xFF = 0xAC ∧ crc8 ρ 0xFF 0x00 = 0x00 ∧ crc8 ρ 0x00 0xAC = 0x00 ∧
    crc8 ρ 0xBE 0xEF = 0x92 ∧
    validWord ρ ⟨0x00, 0x00, 0x00⟩ = false ∧ validWord ρ ⟨0xFF, 0xFF, 0xFF⟩ = false

/-- R64: the accumulator after every bit step of crc8(0xBE, 0xEF), and the bits tested. -/
def Obligations.TraceOfWorkedExample : Prop :=
  initValue = 0xFF ∧ initValue ^^^ 0xBE = 0x41 ∧
  (List.range 8).map (fun k => (bitSteps k 0x41).getLsbD 7) =
    [false, true, false, false, true, true, false, false] ∧
  (List.range 8).map (fun k => bitSteps (k + 1) 0x41) = [0x82, 0x35, 0x6A, 0xD4, 0x99, 0x03, 0x06, 0x0C] ∧
  rom 0x41 = 0x0C ∧ (0x0C : Byte) ^^^ 0xEF = 0xE3 ∧
  (List.range 8).map (fun k => (bitSteps k 0xE3).getLsbD 7) =
    [true, true, true, true, false, false, true, false] ∧
  (List.range 8).map (fun k => bitSteps (k + 1) 0xE3) = [0xF7, 0xDF, 0x8F, 0x2F, 0x5E, 0xBC, 0x49, 0x92] ∧
  rom 0xE3 = 0x92 ∧ crc8 .bitwise 0xBE 0xEF = 0x92

/-- R60's equations: BitStep and T are linear, and the checksum is affine. -/
def Obligations.ChecksumIsAffine : Prop :=
  (∀ x y : Byte, bitStep (x ^^^ y) = bitStep x ^^^ bitStep y) ∧
  (∀ x y : Byte, rom (x ^^^ y) = rom x ^^^ rom y) ∧
  ∀ (ρ : Realization) (a e : Half), crcOf ρ (a ^^^ e) = crcOf ρ a ^^^ crcOf ρ e ^^^ 0x81

/-- R61: the byte step run over all three bytes of a DataWord leaves 0 exactly when the word is valid, so a residue
test gives the OK of VAL and CHK. -/
def Obligations.ResidueIsZeroIffValid : Prop :=
  ∀ (ρ : Realization) (b0 b1 c : Byte),
    (byteStep ρ (byteStep ρ (byteStep ρ 0xFF b0) b1) c = 0x00 ↔ c = crc8 ρ b0 b1) ∧
    okFlag (crc8 ρ b0 b1) c = decide (byteStep ρ (byteStep ρ (byteStep ρ 0xFF b0) b1) c = 0x00)

/-- R62: single bits in the data change the checksum; errors of odd weight, of weight 2 and in a burst of up to 8 bits
make CHK answer BAD_CHECKSUM; the minimum distance is 4. -/
def Obligations.ErrorPatternsDetected : Prop :=
  ∀ ρ : Realization,
    (∀ (w : Half) (k : Nat), k < 16 → crcOf ρ (w ^^^ (1#16 <<< k)) ≠ crcOf ρ w) ∧
    (∀ w e : BitVec 24, validWord ρ (unpackDataWord w) = true →
      (weight e % 2 = 1 ∨ weight e = 2 ∨ burst8 e) →
      validWord ρ (unpackDataWord (w ^^^ e)) = false ∧ errField (perform ρ (0x03#8 ++ (w ^^^ e))) = 1) ∧
    (∀ w e : BitVec 24, validWord ρ (unpackDataWord w) = true → validWord ρ (unpackDataWord (w ^^^ e)) = true →
      e ≠ 0 → 4 ≤ weight e) ∧
    weight 0x000131 = 4 ∧ validWord ρ (unpackDataWord 0xBEEF92) = true ∧
    (0xBEEF92#24 ^^^ 0x000131#24) = 0xBEEEA3#24 ∧ validWord ρ (unpackDataWord 0xBEEEA3) = true

/-- R63: T and each row of crc8 are bijections, every checksum value has 256 inputs of the 65536, and exactly one CRC
byte of 256 makes a data word valid. -/
def Obligations.ChecksumsEvenlyDistributed : Prop :=
  Function.Bijective rom ∧
  ∀ ρ : Realization,
    (∀ b0 : Byte, Function.Bijective (crc8 ρ b0)) ∧
    (∀ c : Byte, ((Finset.range 65536).filter fun n => crcOf ρ (BitVec.ofNat 16 n) = c).card = 256) ∧
    (∀ b0 b1 : Byte,
      ((Finset.range 256).filter fun n => validWord ρ ⟨b0, b1, BitVec.ofNat 8 n⟩ = true).card = 1)

/-! ### Steps and operations -/

/-- A step takes the oldest request away and runs the operation it decodes to; a request that decodes to none is
answered by the rule for reserved OPs; with no request there is no transaction (the last clause is the model's choice,
log entry 2). -/
def Obligations.StepRunsDecodedRequest : Prop :=
  (∀ (s : State) (w : Word) (rest : List Word) (i : Instr),
    s.requests = w :: rest → decode w = .instr i → step s = exec i { s with requests := rest }) ∧
  (∀ (s : State) (w : Word) (rest : List Word) (e : DecodeError),
    s.requests = w :: rest → decode w = .rejected e → step s = execRejected e { s with requests := rest }) ∧
  ∀ s : State, s.requests = [] → step s = .next s

/-- R66: GEN completes from every state, for every CI, under either realization; CRC is the checksum, DATA, OK and ERR
are 0; and nothing else of the state changes but that ACC is discarded. -/
def Obligations.GenAnswersChecksum : Prop :=
  ∀ (ρ : Realization) (b0 b1 ci : Byte) (s : State),
    exec (.gen b0 b1 ci) s = .next { s with
      acc := none
      responses := s.responses ++ [0b00000#5 ++ 0#2 ++ 0#1 ++ 0x0000#16 ++ crc8 ρ b0 b1] }

/-- R67: VAL completes from every state; OK is whether the computed checksum equals CI, and a mismatch is no error. -/
def Obligations.ValAnswersWhetherValid : Prop :=
  ∀ (ρ : Realization) (b0 b1 ci : Byte) (s : State),
    exec (.val b0 b1 ci) s = .next { s with
      acc := none
      responses := s.responses ++
        [0b00000#5 ++ 0#2 ++ (if crc8 ρ b0 b1 = ci then 1#1 else 0#1) ++ 0x0000#16 ++ crc8 ρ b0 b1] }

/-- R68: CHK completes from every state, either way. A valid word is answered with its value, b0 the high byte; an
invalid one with BAD_CHECKSUM, OK = 0, the computed checksum and DATA = 0x0000. (That DATA is the spec's decision D9,
log entry 9: a requester may not use it, R92.) -/
def Obligations.ChkAnswersValueOrBadChecksum : Prop :=
  ∀ (ρ : Realization) (b0 b1 ci : Byte) (s : State),
    exec (.chk b0 b1 ci) s = .next { s with
      acc := none
      responses := s.responses ++
        [if crc8 ρ b0 b1 = ci then 0b00000#5 ++ 0#2 ++ 1#1 ++ (b0 ++ b1) ++ crc8 ρ b0 b1
         else 0b00000#5 ++ 1#2 ++ 0#1 ++ 0x0000#16 ++ crc8 ρ b0 b1] }

/-- R78 without the value of DATA (spec/93_implementation_defined.md I6): CHK of an invalid word goes on to a next state,
with BAD_CHECKSUM in ERR, OK = 0 and the computed checksum in CRC. -/
def Obligations.FailedChkIsReportedInBand : Prop :=
  ∀ (ρ : Realization) (b0 b1 ci : Byte) (s : State), crc8 ρ b0 b1 ≠ ci →
    ∃ r : Word,
      exec (.chk b0 b1 ci) s = .next { s with acc := none, responses := s.responses ++ [r] } ∧
      errField r = 1 ∧ okField r = false ∧ crcField r = crc8 ρ b0 b1 ∧ zeroField r = 0

/-- R69: LUT completes from every state, for every index and every don't-care byte, with T's entry, which is the
bitwise form from 0x00; ACC is not used. -/
def Obligations.LutAnswersTableEntry : Prop :=
  ∀ (index b1 ci : Byte) (s : State),
    exec (.lut index b1 ci) s = .next { s with
      responses := s.responses ++ [0b00000#5 ++ 0#2 ++ 0#1 ++ 0x0000#16 ++ rom index] } ∧
    rom index = byteStepBitwise 0x00 index ∧ table[index.toNat]? = some (rom index)

/-- R70: a request with a reserved OP is answered 0x04000000 whatever bits 23:0 hold, and nothing else of the state
changes. -/
def Obligations.ReservedRequestAnsweredIllegal : Prop :=
  ∀ (op b0 b1 ci : Byte) (rest : List Word) (s : State),
    (op = 0x00 ∨ 0x05 ≤ op.toNat) → s.requests = (op ++ b0 ++ b1 ++ ci) :: rest →
    step s = .next { s with requests := rest, responses := s.responses ++ [0x04000000] }

/-- The frame of every operation: the parameters, the pending requests and every response already given stay; exactly
one response is added; ACC is discarded by GEN, VAL and CHK and left alone by LUT (R14, R16, R76). There is no memory
to change: the table is a constant. -/
def Obligations.OperationsKeepEverythingElse : Prop :=
  ∀ (i : Instr) (s t : State), exec i s = .next t →
    t.config = s.config ∧ t.requests = s.requests ∧
    (∃ r : Word, t.responses = s.responses ++ [r]) ∧
    (match i with
      | .gen _ _ _ => t.acc = none
      | .val _ _ _ => t.acc = none
      | .chk _ _ _ => t.acc = none
      | .lut _ _ _ => t.acc = s.acc)

/-- The run of the accumulator within one operation (R14, R57): fresh at 0xFF whatever it held (R91), one byte step per
data byte, at the end the checksum, and then discarded. -/
def Obligations.AccumulatorRunsFreshAndIsDiscarded : Prop :=
  ∀ (b0 b1 : Byte) (s : State),
    (accStart s).acc = some 0xFF ∧
    (accByte b0 (accStart s)).acc = some (byteStep s.config.realization 0xFF b0) ∧
    (accByte b1 (accByte b0 (accStart s))).acc = some (crc8 s.config.realization b0 b1) ∧
    checksum b0 b1 s = (crc8 s.config.realization b0 b1, { s with acc := none })

/-- The fields an operation does not read are don't-care (R45): CI for GEN, B1 and CI for LUT. -/
def Obligations.DontCareFieldsIgnored : Prop :=
  (∀ (b0 b1 ci ci' : Byte) (s : State), exec (.gen b0 b1 ci) s = exec (.gen b0 b1 ci') s) ∧
  (∀ (index b1 b1' ci ci' : Byte) (s : State), exec (.lut index b1 ci) s = exec (.lut index b1' ci') s) ∧
  (∀ (ρ : Realization) (b0 b1 ci ci' : Byte),
    perform ρ (0x01#8 ++ b0 ++ b1 ++ ci) = perform ρ (0x01#8 ++ b0 ++ b1 ++ ci') ∧
    perform ρ (0x04#8 ++ b0 ++ b1 ++ ci) = perform ρ (0x04#8 ++ b0 ++ 0x00#8 ++ 0x00#8))

/-! ### The whole machine -/

/-- R65: from every state with a pending request, one step answers exactly Perform of it, under either realization, and
changes nothing else but ACC. -/
def Obligations.StepRefinesPerform : Prop :=
  ∀ (ρ : Realization) (s : State) (w : Word) (rest : List Word), s.requests = w :: rest →
    step s = .next { s with
      acc := if 1 ≤ (fieldsOf w).op.toNat ∧ (fieldsOf w).op.toNat ≤ 3 then none else s.acc
      requests := rest
      responses := s.responses ++ [perform ρ w] }

/-- R33 and R94: as many steps as there are requests answer all of them, in their order, each by Perform of itself
alone, and then the block is as it was. -/
def Obligations.QueueAnsweredInOrder : Prop :=
  ∀ (ρ : Realization) (s : State), s.acc = none →
    Host.Core.run Sys2Proof.core s.requests.length s = .next { s with
      requests := []
      responses := s.responses ++ s.requests.map (perform ρ) }

/-- Every step keeps the invariant: ACC is discarded between transactions, and every response given is a legal one. -/
def Obligations.StepKeepsInvariant : Prop :=
  ∀ s t : State, Inv s → step s = .next t → Inv t

/-- The invariant holds after reset, for every choice of the parameters (R23). -/
def Obligations.ResetMeetsInvariant : Prop :=
  (∀ c : Config, Inv (State.resetWith c)) ∧ Inv State.reset

/-- R65, R76 and R94: the block never stops, and a pending request is always performed in one step. That with no request
pending a step takes nothing and gives nothing is the model's choice (log entry 2). -/
def Obligations.MachineNeverStops : Prop :=
  ∀ s : State, ∃ t : State, step s = .next t ∧ t.requests = s.requests.tail ∧
    t.responses.length = s.responses.length + min 1 s.requests.length

/-- R13, R75 and R91: two blocks with the same next request give the same response, whatever each did before, holds in
ACC, has pending behind it, and however each is realized. -/
def Obligations.ResponseDependsOnRequestOnly : Prop :=
  ∀ (s s' : State) (w : Word) (rest rest' : List Word), s.requests = w :: rest → s'.requests = w :: rest' →
    ∃ (t t' : State) (r : Word), step s = .next t ∧ step s' = .next t' ∧
      t.responses = s.responses ++ [r] ∧ t'.responses = s'.responses ++ [r]

/-- R77: which error a response carries. BAD_CHECKSUM exactly for CHK of a word whose checksum is not CI, ILLEGAL_OP
exactly for a reserved OP, whatever the payload (R81), and code 3 never, so NONE in every other case. (DATA beside
BAD_CHECKSUM is decision D9, log entry 9.) -/
def Obligations.ErrorCodesAndTheirCauses : Prop :=
  ∀ (ρ : Realization) (op b0 b1 ci : Byte),
    let r := perform ρ (op ++ b0 ++ b1 ++ ci)
    (errField r = 1 ↔ op = 0x03 ∧ crc8 ρ b0 b1 ≠ ci) ∧
    (errField r = 2 ↔ op = 0x00 ∨ 0x05 ≤ op.toNat) ∧
    errField r ≠ 3 ∧
    (errField r = 0 ↔ op = 0x01 ∨ op = 0x02 ∨ op = 0x04 ∨ (op = 0x03 ∧ crc8 ρ b0 b1 = ci)) ∧
    (errField r = 1 → crcField r = crc8 ρ b0 b1 ∧ dataField r = 0x0000) ∧
    (errField r = 2 → r = 0x04000000)

/-- R42: every field of the response to every request. (DATA after a failed CHK is decision D9, log entry 9.) -/
def Obligations.ResponseFieldsOfEveryRequest : Prop :=
  ∀ (ρ : Realization) (op b0 b1 ci : Byte),
    let r := perform ρ (op ++ b0 ++ b1 ++ ci)
    crcField r =
      (if op = 0x01 ∨ op = 0x02 ∨ op = 0x03 then crc8 ρ b0 b1 else if op = 0x04 then rom b0 else 0x00) ∧
    dataField r = (if op = 0x03 ∧ crc8 ρ b0 b1 = ci then b0 ++ b1 else 0x0000) ∧
    (okField r = true ↔ (op = 0x02 ∨ op = 0x03) ∧ crc8 ρ b0 b1 = ci) ∧
    errField r = (if op = 0x01 ∨ op = 0x02 ∨ op = 0x04 then 0
      else if op = 0x03 then (if crc8 ρ b0 b1 = ci then 0 else 1) else 2) ∧
    zeroField r = 0

/-- The source's property 2 through the machine: the CRC field that GEN answers, put into CI, makes VAL and CHK of the
same bytes answer OK = 1, and CHK gives the value back (R66 to R68). -/
def Obligations.GeneratedChecksumIsAccepted : Prop :=
  ∀ (b0 b1 ci : Byte) (s : State), ∃ (g v k : State) (rg rv rk : Word),
    exec (.gen b0 b1 ci) s = .next g ∧ g.responses = s.responses ++ [rg] ∧
    exec (.val b0 b1 (crcField rg)) g = .next v ∧ v.responses = g.responses ++ [rv] ∧ okField rv = true ∧
    exec (.chk b0 b1 (crcField rg)) v = .next k ∧ k.responses = v.responses ++ [rk] ∧ okField rk = true ∧
    dataField rk = b0 ++ b1

/-- R34: however requesters interleave, each is answered Perform of its own requests, in its own order. `q` tags each
pending request with its requester, which the block does not see. -/
def Obligations.RequestersDoNotDisturbEachOther : Prop :=
  ∀ (s : State) (q : List (Nat × Word)), s.requests = q.map Prod.snd →
    ∃ (t : State) (answers : List Word),
      Host.Core.run Sys2Proof.core q.length s = .next t ∧ t.responses = s.responses ++ answers ∧
      answers.length = q.length ∧
      ∀ (ρ : Realization) (who : Nat),
        ((q.zip answers).filter fun x => x.1.1 == who).map Prod.snd =
          (q.filter fun x => x.1 == who).map fun x => perform ρ x.2

/-! ### Frames and the requester's side -/

/-- R71: FrameCheck gives every value exactly when every word is valid, and no value otherwise; stopping at the first
failing word gives the same; the ProductId of two valid words has the first in its high bits. The spec's frames have
2 or 3 words, and CHKF takes 1 to 3: that the same holds of every other list of words, the empty one included, is the
model's choice (log entry 14). -/
def Obligations.FrameCheckIsAllOrNothing : Prop :=
  ∀ ρ : Realization,
    (∀ ds : List DataWord, frameCheck ρ ds =
      if ∀ d ∈ ds, crc8 ρ d.b0 d.b1 = d.crc then .ok (ds.map fun d => d.b0 ++ d.b1) else .badChecksum) ∧
    (∀ ds : List DataWord, frameCheckStopping ρ ds = frameCheck ρ ds) ∧
    ∀ b0 b1 b0' b1' : Byte,
      productId (frameCheck ρ [⟨b0, b1, crc8 ρ b0 b1⟩, ⟨b0', b1', crc8 ρ b0' b1'⟩]) =
        some (b0 ++ b1 ++ b0' ++ b1')

/-- R71 through the machine: a frame's CHK requests issued to the block, from any state and with anything pending behind
them, are answered so that their combination is FrameCheck of the frame. That a frame here may have any number of words is the
model's choice (log entry 14). -/
def Obligations.FrameCheckedByTheMachine : Prop :=
  ∀ (ρ : Realization) (s : State) (ds : List DataWord) (rest : List Word),
    s.requests = ds.map chkRequest ++ rest →
    ∃ (t : State) (answers : List Word),
      Host.Core.run Sys2Proof.core ds.length s = .next t ∧ t.requests = rest ∧
      t.responses = s.responses ++ answers ∧ combineResponses answers = frameCheck ρ ds

/-- The frames of spec/95_test_vectors.md section 2.3, from their bytes, and the three ProductIds listed there. -/
def Obligations.ListedFramesChecked : Prop :=
  ∀ ρ : Realization,
    frameCheckBytes ρ .productId [0x03, 0x01, 0x9D, 0x01, 0x01, 0x44] = some (.ok [0x0301, 0x0101]) ∧
    productId (.ok [0x0301, 0x0101]) = some 0x03010101 ∧
    frameCheckBytes ρ .productId [0x03, 0x01, 0x9D, 0x02, 0x01, 0x69] = some (.ok [0x0301, 0x0201]) ∧
    productId (.ok [0x0301, 0x0201]) = some 0x03010201 ∧
    frameCheckBytes ρ .productId [0xDE, 0xAD, 0x98, 0xBE, 0xEF, 0x92] = some (.ok [0xDEAD, 0xBEEF]) ∧
    productId (.ok [0xDEAD, 0xBEEF]) = some 0xDEADBEEF ∧
    frameCheckBytes ρ .productId [0x03, 0x01, 0x9D, 0x01, 0x01, 0x45] = some .badChecksum ∧
    frameCheckBytes ρ .measurement [0x00, 0xF0, 0x03, 0x03, 0x20, 0x2A, 0x00, 0x3C, 0x39] =
      some (.ok [240, 800, 60]) ∧
    frameCheckBytes ρ .measurement [0x00, 0xF0, 0x03, 0x03, 0x20, 0x2B, 0x00, 0x3C, 0x39] = some .badChecksum ∧
    frameCheckBytes ρ .measurement [0, 0, 0, 0, 0, 0, 0, 0, 0] = some .badChecksum ∧
    frameCheckBytes ρ .measurement [0xFF, 0xFF, 0xFF, 0xFF, 0xFF, 0xFF, 0xFF, 0xFF, 0xFF] = some .badChecksum ∧
    frameCheckBytes ρ .measurement [0x00, 0x00, 0x81, 0x00, 0x00, 0x81, 0x00, 0x00, 0x81] = some (.ok [0, 0, 0])

/-- R92: the requester may use a word's value exactly when it asked with CHK or VAL and the word is valid; for CHK, OK = 1
and ERR = NONE are the same test; and every word of a frame must pass. That the frame clause ranges over every list of
words, the empty one included, which needs no word to pass, is the model's choice (log entry 14). -/
def Obligations.OnlyCheckedValuesAreUsed : Prop :=
  (∀ (ρ : Realization) (op b0 b1 ci : Byte),
    let w : Word := op ++ b0 ++ b1 ++ ci
    (mayUseValue w (perform ρ w) = true ↔ (op = 0x02 ∨ op = 0x03) ∧ crc8 ρ b0 b1 = ci) ∧
    (op = 0x03 → (okField (perform ρ w) = true ↔ errField (perform ρ w) = 0))) ∧
  ∀ (ρ : Realization) (ds : List DataWord),
    mayUseFrame (ds.map fun d => (chkRequest d, perform ρ (chkRequest d))) = true ↔
      ∃ values : List Half, frameCheck ρ ds = .ok values

/-- R47: the four forms assemble to their words with 0x00 in don't-care fields, `.req` to its word, and a literal
outside 0..255 spells no request. -/
def Obligations.AssemblerFormsSpellRequests : Prop :=
  (∀ b0 b1 c : Byte,
    assemble (.gen b0.toNat b1.toNat) = .ok [0x01#8 ++ b0 ++ b1 ++ 0x00#8] ∧
    assemble (.val b0.toNat b1.toNat c.toNat) = .ok [0x02#8 ++ b0 ++ b1 ++ c] ∧
    assemble (.chk b0.toNat b1.toNat c.toNat) = .ok [0x03#8 ++ b0 ++ b1 ++ c] ∧
    assemble (.lut b0.toNat) = .ok [0x04#8 ++ b0 ++ 0x00#8 ++ 0x00#8]) ∧
  (∀ w : Word, assemble (.req w.toNat) = .ok [w]) ∧
  ∀ b0 b1 c : Nat, (256 ≤ b0 ∨ 256 ≤ b1 ∨ 256 ≤ c) →
    assemble (.val b0 b1 c) = .error .notWellFormed ∧ assemble (.chk b0 b1 c) = .error .notWellFormed ∧
    (256 ≤ b0 ∨ 256 ≤ b1 → assemble (.gen b0 b1) = .error .notWellFormed) ∧
    (256 ≤ b0 → assemble (.lut b0) = .error .notWellFormed)

/-- R48: every pseudo-operation is its expansion. CHKF of one to three words is the CHK request of each word, in frame
order. -/
def Obligations.PseudoOperationsExpand : Prop :=
  (∀ (w : Half) (c : Nat),
    assemble (.genw w.toNat) = assemble (.gen (w.toNat / 256) (w.toNat % 256)) ∧
    assemble (.valw w.toNat c) = assemble (.val (w.toNat / 256) (w.toNat % 256) c) ∧
    assemble (.chkw w.toNat c) = assemble (.chk (w.toNat / 256) (w.toNat % 256) c)) ∧
  ∀ ds : List DataWord, 1 ≤ ds.length → ds.length ≤ 3 →
    assemble (.chkf ds.length ((wireBytes ds).map BitVec.toNat)) = .ok (ds.map chkRequest)

/-- R47: a `;` begins a comment, whatever stands before it and after it on the line. That a line of blanks and a comment
spells no request, and which characters are blanks, is the model's choice (log entry 10): R47 gives neither. -/
def Obligations.CommentsSpellNothing : Prop :=
  (∀ line comment : List Char, assembleLine (line ++ ';' :: comment) = assembleLine line) ∧
  ∀ blanks comment : List Char, (∀ c ∈ blanks, isBlank c = true) →
    assembleLine (blanks ++ ';' :: comment) = .ok []

/-! ### Reset -/

/-- R87: a reset at any moment changes no later response, for any number of steps. That the pending requests and the
responses given survive it is the model's choice (log entry 11). -/
def Obligations.ResetIsUnobservable : Prop :=
  ∀ (n : Nat) (s : State), ∃ t t' : State,
    Host.Core.run Sys2Proof.core n s = .next t ∧ Host.Core.run Sys2Proof.core n (resetBlock s) = .next t' ∧
    t'.responses = t.responses ∧ t'.requests = t.requests ∧ t'.config = t.config

/-- R23: after reset ACC holds nothing and T is the table of R53, and a response after reset equals the response to the
same request at any other time, which is Perform's. (That nothing is pending and nothing answered yet is the model's
own, log entry 1.) -/
def Obligations.ResponseAfterResetIsAsEver : Prop :=
  (∀ c : Config, (State.resetWith c).acc = none) ∧
  (∀ i : Byte, table[i.toNat]? = some (bitSteps 8 i)) ∧ table.length = 256 ∧
  (∀ (ρ : Realization) (c : Config) (w : Word),
    step (issue w (State.resetWith c)) = .next { State.resetWith c with responses := [perform ρ w] }) ∧
  ∀ (c : Config) (s : State) (w : Word) (rest : List Word), s.requests = w :: rest →
    ∃ (t t' : State) (r : Word), step (issue w (State.resetWith c)) = .next t ∧ step s = .next t' ∧
      t.responses = [r] ∧ t'.responses = s.responses ++ [r]
end

