-- ==== Sys2Proof/Laws/Crc.lean ====
section
/-! SUPPORT. One spec lemma for each function of Machine/Crc.lean; callers cite these and do not unfold. -/

namespace Sys2Proof.Machine

@[simp] theorem bitStep_zero : bitStep 0 = 0 := rfl

theorem bitSteps_zero (n : Nat) : bitSteps n 0 = 0 := by
  induction n with
  | zero => rfl
  | succ n ih => exact ih

/-- T has 256 entries (R15). -/
theorem table_length : table.length = 256 := by simp [table]

/-- What `Rom` reads is the bitwise form at that index (R53). -/
theorem rom_eq_bitSteps (i : Byte) : rom i = bitSteps 8 i := by
  simp [rom, table, byteStepBitwise]

/-- An implementation without a physical table serves the same entry (R15). -/
theorem romRead_eq_rom (ρ : Realization) (i : Byte) : romRead ρ i = rom i := by
  cases ρ
  · simp [romRead, byteStepBitwise, rom_eq_bitSteps]
  · rfl

/-- Either realization's byte step is eight bit steps of the byte folded in (R52, R54). -/
theorem byteStep_eq_bitSteps (ρ : Realization) (r b : Byte) :
    byteStep ρ r b = bitSteps 8 (r ^^^ b) := by
  cases ρ
  · rfl
  · exact rom_eq_bitSteps _

end Sys2Proof.Machine
end

