-- ==== Sys2Proof/Laws/Fields.lean ====
section
/-! SUPPORT. The fields of a request word put together are the fields it was put together from. -/

namespace Sys2Proof

/-- A bit of four bytes put together, the last one lowest. -/
theorem getLsbD_fourBytes (a b c d : Byte) (i : Nat) :
    (a ++ b ++ c ++ d : Word).getLsbD i =
      if i < 8 then d.getLsbD i else if i < 16 then c.getLsbD (i - 8)
      else if i < 24 then b.getLsbD (i - 16) else a.getLsbD (i - 24) := by
  have h : BitVec.getLsbD (w := 8 + 8 + 8 + 8) (a ++ b ++ c ++ d) i =
      if i < 8 then d.getLsbD i else if i - 8 < 8 then c.getLsbD (i - 8)
      else if i - 8 - 8 < 8 then b.getLsbD (i - 8 - 8) else a.getLsbD (i - 8 - 8 - 8) := by
    simp only [BitVec.getLsbD_append]
  refine h.trans ?_
  simp only [Nat.sub_sub, Nat.reduceAdd]
  split_ifs <;> first | rfl | omega

/-- What a word's byte is, bit by bit. -/
theorem byte_of_word (x : Byte) (w : Word) (k : Nat)
    (h : ∀ i < 8, w.getLsbD (k + i) = x.getLsbD i) : w.extractLsb' k 8 = x := by
  ext i hi
  simpa [hi] using h i hi

@[simp] theorem fieldsOf_wordOf (f : Fields) : fieldsOf (wordOf f) = f := by
  obtain ⟨op, b0, b1, ci⟩ := f
  simp only [fieldsOf, wordOf, Fields.mk.injEq]
  refine ⟨?_, ?_, ?_, ?_⟩ <;> refine byte_of_word _ _ _ fun i hi => ?_ <;>
    rw [getLsbD_fourBytes] <;> split_ifs <;> first | omega | (congr 1; omega)

@[simp] theorem wordOf_fieldsOf (w : Word) : wordOf (fieldsOf w) = w := by
  refine BitVec.eq_of_getLsbD_eq fun i hi => ?_
  simp only [wordOf, fieldsOf, getLsbD_fourBytes, BitVec.getLsbD_extractLsb']
  split_ifs with h1 h2 h3
  · simp [h1]
  · simp [show i - 8 < 8 by omega, show 8 + (i - 8) = i by omega]
  · simp [show i - 16 < 8 by omega, show 16 + (i - 16) = i by omega]
  · simp [show i - 24 < 8 by omega, show 24 + (i - 24) = i by omega]

end Sys2Proof
end

