-- ==== Sys2Proof/Laws/State.lean ====
section
/-! SUPPORT. One lemma per field per update of State, so that no proof unfolds a record update. -/

namespace Sys2Proof.Machine

variable (s : State) (r : Response) (w : Word) (b : Byte) (c : Config)

@[simp] theorem resetWith_config : (State.resetWith c).config = c := rfl
@[simp] theorem resetWith_acc : (State.resetWith c).acc = none := rfl
@[simp] theorem resetWith_requests : (State.resetWith c).requests = [] := rfl
@[simp] theorem resetWith_responses : (State.resetWith c).responses = [] := rfl

@[simp] theorem issue_config : (issue w s).config = s.config := rfl
@[simp] theorem issue_acc : (issue w s).acc = s.acc := rfl
@[simp] theorem issue_requests : (issue w s).requests = s.requests ++ [w] := rfl
@[simp] theorem issue_responses : (issue w s).responses = s.responses := rfl

@[simp] theorem presentFirst_config : (presentFirst w s).config = s.config := rfl
@[simp] theorem presentFirst_acc : (presentFirst w s).acc = s.acc := rfl
@[simp] theorem presentFirst_requests : (presentFirst w s).requests = w :: s.requests := rfl
@[simp] theorem presentFirst_responses : (presentFirst w s).responses = s.responses := rfl

@[simp] theorem respond_config : (respond r s).config = s.config := rfl
@[simp] theorem respond_acc : (respond r s).acc = s.acc := rfl
@[simp] theorem respond_requests : (respond r s).requests = s.requests := rfl
@[simp] theorem respond_responses : (respond r s).responses = s.responses ++ [packResponse r] := rfl

@[simp] theorem accStart_config : (accStart s).config = s.config := rfl
@[simp] theorem accStart_acc : (accStart s).acc = some initValue := rfl
@[simp] theorem accStart_requests : (accStart s).requests = s.requests := rfl
@[simp] theorem accStart_responses : (accStart s).responses = s.responses := rfl

@[simp] theorem accByte_config : (accByte b s).config = s.config := rfl
@[simp] theorem accByte_acc :
    (accByte b s).acc = s.acc.map fun x => byteStep s.config.realization x b := rfl
@[simp] theorem accByte_requests : (accByte b s).requests = s.requests := rfl
@[simp] theorem accByte_responses : (accByte b s).responses = s.responses := rfl

@[simp] theorem accDiscard_config : (accDiscard s).config = s.config := rfl
@[simp] theorem accDiscard_acc : (accDiscard s).acc = none := rfl
@[simp] theorem accDiscard_requests : (accDiscard s).requests = s.requests := rfl
@[simp] theorem accDiscard_responses : (accDiscard s).responses = s.responses := rfl

@[simp] theorem resetBlock_config : (resetBlock s).config = s.config := rfl
@[simp] theorem resetBlock_acc : (resetBlock s).acc = none := rfl
@[simp] theorem resetBlock_requests : (resetBlock s).requests = s.requests := rfl
@[simp] theorem resetBlock_responses : (resetBlock s).responses = s.responses := rfl

end Sys2Proof.Machine
end

