-- ==== Sys2Proof/Laws/Ops.lean ====
section
/-! SUPPORT. One spec lemma for each shared operation, and the whole effect of `exec` said once. -/

namespace Sys2Proof.Machine

/-- Everything `checksum` does: crc8 by the implementation's realization, from a fresh accumulator whatever ACC held,
and ACC is discarded. -/
theorem checksum_eq (b0 b1 : Byte) (s : State) :
    checksum b0 b1 s = (crc8 s.config.realization b0 b1, { s with acc := none }) := rfl

theorem takeRequest_nil {s : State} (h : s.requests = []) : takeRequest s = none := by
  simp [takeRequest, h]

theorem takeRequest_cons {s : State} {w : Word} {rest : List Word} (h : s.requests = w :: rest) :
    takeRequest s = some (w, { s with requests := rest }) := by
  simp [takeRequest, h]

/-- ACC once an operation has ended: discarded by those that use it, untouched by LUT (R14). -/
def accAfter : Instr → State → Option Byte
  | .gen _ _ _, _ => none
  | .val _ _ _, _ => none
  | .chk _ _ _, _ => none
  | .lut _ _ _, s => s.acc

/-- Everything an operation can do to the state: end the accumulator and give one response. -/
theorem exec_effect (i : Instr) (s : State) :
    ∃ r, exec i s = .next { s with acc := accAfter i s, responses := s.responses ++ [packResponse r] } := by
  cases i <;> exact ⟨_, rfl⟩

/-- Everything a rejected request does: one response, and nothing else. -/
theorem execRejected_effect (e : DecodeError) (s : State) :
    execRejected e s = .next { s with responses := s.responses ++ [0x04000000] } := by
  cases e; rfl

end Sys2Proof.Machine
end

