-- ==== Sys2Proof/Laws/PerInstr.lean ====
section
/-! SUPPORT. Family TableRow: the request word of an operation has the fixed bits of its row of spec/opcode_table.json:
its match under its mask, which is its OP over zeros. -/

namespace Sys2Proof.Laws.TableRow

/-- The `match` of an operation's row. -/
def rowMatch : Instr → Word
  | .gen _ _ _ => 0x01000000
  | .val _ _ _ => 0x02000000
  | .chk _ _ _ => 0x03000000
  | .lut _ _ _ => 0x04000000

/-- The rows' one `mask`. -/
def rowMask : Word := 0xFF000000

def Statement (i : Instr) : Prop := encode i &&& rowMask = rowMatch i

/-- Under the mask a word is its OP byte over zeros. -/
theorem wordOf_masked (f : Fields) : wordOf f &&& rowMask = wordOf ⟨f.op, 0, 0, 0⟩ := by
  have h : rowMask = wordOf ⟨0xFF, 0, 0, 0⟩ := by decide
  refine BitVec.eq_of_getLsbD_eq fun i hi => ?_
  rw [h, BitVec.getLsbD_and]
  simp only [wordOf, getLsbD_fourBytes]
  split_ifs with h1 h2 h3
  · simp
  · simp
  · simp
  · have h8 : i - 24 < 8 := by omega
    have : ∀ k < 8, BitVec.getLsbD (0xFF : Byte) k = true := by decide
    rw [this _ h8, Bool.and_true]

theorem gen (b0 b1 ci : Byte) : Statement (.gen b0 b1 ci) :=
  (wordOf_masked ⟨opGen, b0, b1, ci⟩).trans (show wordOf ⟨opGen, 0, 0, 0⟩ = 0x01000000 by decide)
theorem val (b0 b1 ci : Byte) : Statement (.val b0 b1 ci) :=
  (wordOf_masked ⟨opVal, b0, b1, ci⟩).trans (show wordOf ⟨opVal, 0, 0, 0⟩ = 0x02000000 by decide)
theorem chk (b0 b1 ci : Byte) : Statement (.chk b0 b1 ci) :=
  (wordOf_masked ⟨opChk, b0, b1, ci⟩).trans (show wordOf ⟨opChk, 0, 0, 0⟩ = 0x03000000 by decide)
theorem lut (index b1 ci : Byte) : Statement (.lut index b1 ci) :=
  (wordOf_masked ⟨opLut, index, b1, ci⟩).trans (show wordOf ⟨opLut, 0, 0, 0⟩ = 0x04000000 by decide)

end Sys2Proof.Laws.TableRow
end

