-- ==== Sys2Proof/Tests/Slice0.lean ====
section
/-! SUPPORT. The model's own tests. Every expected value is from spec/95_test_vectors.md or the rule named; then a witness
for the hypotheses of each statement that has some. -/

-- One theorem after the other: evaluated side by side, the tests would take threads of a gigabyte each.
set_option Elab.async false

namespace Sys2Proof.Tests

open Sys2Proof.Machine Sys2Proof.Safety

/-- The responses after an outcome. -/
def answers : Host.Outcome State Fault Refusal → List Word
  | .next s => s.responses
  | .fault _ => []
  | .refused _ => []

/-- The answer to one request after reset, with a realization. -/
def answerTo (ρ : Realization) (w : Word) : List Word :=
  answers (step (issue w (State.resetWith ⟨ρ, none⟩)))

/-! ### WellFormed: one ill-formed term for each check -/

theorem test_wellFormed_refuses_op_below : Fields.wellFormed ⟨0x00, 0, 0, 0⟩ = false := by decide
theorem test_wellFormed_refuses_op_above : Fields.wellFormed ⟨0x05, 0, 0, 0⟩ = false := by decide
theorem test_wellFormed_ops :
    Fields.wellFormed ⟨0x01, 0, 0, 0⟩ = true ∧ Fields.wellFormed ⟨0x04, 0, 0, 0⟩ = true := by decide
theorem test_asm_refuses_byte :
    Asm.wellFormed (.gen 256 0) = false ∧ Asm.wellFormed (.gen 0 256) = false ∧
    Asm.wellFormed (.val 256 0 0) = false ∧ Asm.wellFormed (.val 0 256 0) = false ∧
    Asm.wellFormed (.val 0 0 256) = false ∧ Asm.wellFormed (.chk 256 0 0) = false ∧
    Asm.wellFormed (.chk 0 256 0) = false ∧ Asm.wellFormed (.chk 0 0 256) = false ∧
    Asm.wellFormed (.lut 256) = false ∧ Asm.wellFormed (.valw 0 256) = false ∧
    Asm.wellFormed (.chkw 0 256) = false := by decide
theorem test_asm_refuses_wide :
    Asm.wellFormed (.req 4294967296) = false ∧ Asm.wellFormed (.genw 65536) = false ∧
    Asm.wellFormed (.valw 65536 0) = false ∧ Asm.wellFormed (.chkw 65536 0) = false := by decide
theorem test_asm_refuses_frame :
    Asm.wellFormed (.chkf 0 []) = false ∧ Asm.wellFormed (.chkf 1 [0, 0]) = false ∧
    Asm.wellFormed (.chkf 1 [0, 0, 256]) = false ∧
    Asm.wellFormed (.chkf 4 [0, 0, 0, 0, 0, 0, 0, 0, 0, 0, 0, 0]) = false := by decide

/-! ### Decode: words written out from R41 and R43 -/

theorem test_decode_gen : decode 0b00000001101111101110111100000000#32 = .instr (.gen 0xBE 0xEF 0x00) := by decide
theorem test_decode_val : decode 0b00000010101111101110111110010010#32 = .instr (.val 0xBE 0xEF 0x92) := by decide
theorem test_decode_chk : decode 0b00000011000000110010000000101011#32 = .instr (.chk 0x03 0x20 0x2B) := by decide
theorem test_decode_lut : decode 0b00000100010000010000000000000000#32 = .instr (.lut 0x41 0x00 0x00) := by decide
theorem test_decode_reserved : decode 0x80BEEF92 = .rejected (.reservedOp 0x80) := by decide
theorem test_decodeTableWord :
    decodeTableWord 32 0x03BEEF92 = some (.chk 0xBE 0xEF 0x92) ∧ decodeTableWord 32 0 = none := by decide

/-! ### The algorithm (section 2.1 of the vectors, and the two cross-checks of section 4) -/

theorem test_bitStep : bitStep 0xC4 = 0xB9 ∧ bitStep 0x7F = 0xFE ∧ bitStep 0x80 = 0x31 := by decide
theorem test_byteStep : byteStep .bitwise 0x12 0x34 = 0x20 ∧ byteStep .bitwise 0xAC 0x00 = 0x81 := by decide
theorem test_byteStep_table : byteStep .table 0x12 0x34 = 0x20 := by decide
theorem test_crc8 :
    crc8 .bitwise 0x00 0x01 = 0xB0 ∧ crc8 .bitwise 0x01 0x00 = 0x75 ∧ crc8 .bitwise 0x12 0x34 = 0x37 := by decide +kernel
/-- The catalogued check value over "123456789" (G2), an extension beyond the block's two bytes. -/
theorem test_catalogue_check_value :
    [0x31, 0x32, 0x33, 0x34, 0x35, 0x36, 0x37, 0x38, 0x39].foldl (byteStep .bitwise) 0xFF = 0xF7 := by decide +kernel

/-! ### Operations, one step each (section 2.2 of the vectors) -/

theorem test_gen : answerTo .bitwise 0x01010000 = [0x00000075] := by decide +kernel
theorem test_gen_ignores_ci : answerTo .table 0x01BEEFFF = [0x00000092] := by decide +kernel
theorem test_val_mismatch_is_no_error : answerTo .bitwise 0x02BEEF93 = [0x00000092] := by decide +kernel
theorem test_val_match : answerTo .table 0x02BEEEA3 = [0x010000A3] := by decide +kernel
theorem test_chk_valid : answerTo .bitwise 0x03800193 = [0x01800193] := by decide +kernel
theorem test_chk_bad : answerTo .table 0x0303202B = [0x0200002A] := by decide +kernel
theorem test_lut : answerTo .bitwise 0x04FFFFFF = [0x000000AC] := by decide
theorem test_lut_table : answerTo .table 0x04800000 = [0x0000007A] := by decide
theorem test_reserved : answerTo .bitwise 0x05BEEF92 = [0x04000000] := by decide
theorem test_withFetchWord : answers (step (State.reset.withFetchWord 32 0x03BEEF92)) = [0x01BEEF92] := by decide +kernel
theorem test_oldest_first :
    answers (step (issue 0x04000000 (issue 0x02000081 State.reset))) = [0x01000081] := by decide +kernel

/-! ### The assembler (R47, R48) -/

theorem test_assembleLine :
    assembleLine "GEN 0xBE, 0xEF          ; 0x01BEEF00".toList = .ok [0x01BEEF00] := by decide
theorem test_assembleLine_decimal : assembleLine "VALW 48879, 146".toList = .ok [0x02BEEF92] := by decide
theorem test_assembleLine_req : assembleLine ".req 0x00123456".toList = .ok [0x00123456] := by decide
theorem test_assembleLine_range : assembleLine "LUT 256".toList = .error .notWellFormed := by decide
theorem test_assembleLine_unknown : assembleLine "NOP".toList = .error .notALine := by decide
theorem test_assembleText_chkf :
    assembleText "; P1\nCHKF 2, 0x03, 0x01, 0x9D, 0x01, 0x01, 0x44".toList = .ok [0x0303019D, 0x03010144] := by
  decide

/-! ### Frames (section 2.3 of the vectors) -/

theorem test_frame_bad_word :
    frameCheckBytes .bitwise .measurement [0x00, 0xF0, 0x03, 0x03, 0x20, 0x2B, 0x00, 0x3C, 0x39] =
      some .badChecksum := by decide +kernel
theorem test_frame_short : parseFrame .productId [0x03, 0x01, 0x9D] = none := by decide

/-! ### Witnesses: a state and operands that meet each statement's hypotheses -/

/-- A block with a table in use, requests of every kind pending, and one response given. -/
def sample : State where
  config := ⟨.table, some 0x4000⟩
  acc := none
  requests := [0x01BEEF00, 0x03BEEF93, 0x05BEEF92, 0x04FF0000]
  responses := [0x00000092]

/-- The same with one request pending. -/
def pending (w : Word) : State := { sample with requests := [w] }

theorem test_witness_DecodeEncodeAgree :
    Instr.wellFormed (.lut 0xFF 0xFF 0xFF) = true ∧ decode 0x04FFFFFF = .instr (.lut 0xFF 0xFF 0xFF) := by decide
theorem test_witness_OpcodeMapSelectsOperation :
    ((0x00 : Byte) = 0x00 ∨ 0x05 ≤ (0x00 : Byte).toNat) ∧ ((0x05 : Byte) = 0x00 ∨ 0x05 ≤ (0x05 : Byte).toNat) ∧
    ((0xFF : Byte) = 0x00 ∨ 0x05 ≤ (0xFF : Byte).toNat) ∧ ¬ ((0x04 : Byte) = 0x00 ∨ 0x05 ≤ (0x04 : Byte).toNat) := by
  decide
theorem test_witness_FrameBytesAreItsWords :
    parseFrame .productId [0x03, 0x01, 0x9D, 0x01, 0x01, 0x44] =
      some [⟨0x03, 0x01, 0x9D⟩, ⟨0x01, 0x01, 0x44⟩] := by decide
theorem test_witness_ErrorPatterns_bit_bounds : (0 : Nat) < 16 ∧ (15 : Nat) < 16 := by decide
theorem test_witness_ErrorPatterns_odd :
    validWord .bitwise (unpackDataWord 0xBEEF92) = true ∧ weight 0x800000 % 2 = 1 ∧ weight 0x000001 % 2 = 1 := by decide +kernel
theorem test_witness_ErrorPatterns_two :
    validWord .bitwise (unpackDataWord 0xBEEF92) = true ∧ weight 0x800001 = 2 := by decide +kernel
theorem test_witness_ErrorPatterns_burst :
    validWord .bitwise (unpackDataWord 0xBEEF92) = true ∧ burst8 0xFF0000 :=
  ⟨by decide +kernel, by decide +kernel, 16, 0xFF, by decide +kernel⟩
theorem test_witness_ErrorPatterns_undetected :
    validWord .bitwise (unpackDataWord 0xBEEF92) = true ∧
    validWord .bitwise (unpackDataWord (0xBEEF92 ^^^ 0x000131)) = true ∧ (0x000131 : BitVec 24) ≠ 0 := by decide +kernel
theorem test_witness_StepRunsDecodedRequest_instr :
    sample.requests = 0x01BEEF00 :: [0x03BEEF93, 0x05BEEF92, 0x04FF0000] ∧
    decode 0x01BEEF00 = .instr (.gen 0xBE 0xEF 0x00) := by decide
theorem test_witness_StepRunsDecodedRequest_rejected :
    (pending 0x05BEEF92).requests = [0x05BEEF92] ∧ decode 0x05BEEF92 = .rejected (.reservedOp 0x05) := by decide
theorem test_witness_StepRunsDecodedRequest_idle : State.reset.requests = [] := by decide
theorem test_witness_FailedChkIsReportedInBand : crc8 .bitwise 0xBE 0xEF ≠ 0x93 := by decide +kernel
theorem test_witness_ReservedRequest_zero :
    ((0x00 : Byte) = 0x00 ∨ 0x05 ≤ (0x00 : Byte).toNat) ∧
    (pending 0x00123456).requests = (0x00#8 ++ 0x12#8 ++ 0x34#8 ++ 0x56#8) :: [] := by decide
theorem test_witness_ReservedRequest_five :
    ((0x05 : Byte) = 0x00 ∨ 0x05 ≤ (0x05 : Byte).toNat) ∧
    (pending 0x05BEEF92).requests = (0x05#8 ++ 0xBE#8 ++ 0xEF#8 ++ 0x92#8) :: [] := by decide
theorem test_witness_gen_completes : ∃ t, exec (.gen 0xBE 0xEF 0x00) sample = .next t := ⟨_, rfl⟩
theorem test_witness_val_completes : ∃ t, exec (.val 0xBE 0xEF 0x92) sample = .next t := ⟨_, rfl⟩
theorem test_witness_chk_completes : ∃ t, exec (.chk 0xBE 0xEF 0x93) sample = .next t := ⟨_, rfl⟩
theorem test_witness_lut_completes : ∃ t, exec (.lut 0xFF 0x00 0x00) sample = .next t := ⟨_, rfl⟩
theorem test_witness_StepRefinesPerform :
    (pending 0x03BEEF93).requests = 0x03BEEF93 :: [] ∧
    (1 ≤ (fieldsOf 0x03BEEF93).op.toNat ∧ (fieldsOf 0x03BEEF93).op.toNat ≤ 3) ∧
    ¬ (1 ≤ (fieldsOf 0x04FF0000).op.toNat ∧ (fieldsOf 0x04FF0000).op.toNat ≤ 3) := by decide
theorem test_witness_QueueAnsweredInOrder : sample.acc = none ∧ sample.requests.length = 4 := by decide
theorem test_witness_StepKeepsInvariant : Inv sample ∧ ∃ t, step sample = .next t :=
  ⟨⟨by decide, fun r h => by
    obtain rfl : r = 0x00000092 := List.mem_singleton.mp h
    decide +kernel⟩, _, rfl⟩
theorem test_witness_ResponseDependsOnRequestOnly :
    (pending 0x01BEEF00).requests = 0x01BEEF00 :: [] ∧
    sample.requests = 0x01BEEF00 :: [0x03BEEF93, 0x05BEEF92, 0x04FF0000] := by decide
theorem test_witness_RequestersDoNotDisturbEachOther :
    sample.requests = [(1, 0x01BEEF00), (2, 0x03BEEF93), (1, 0x05BEEF92), (2, 0x04FF0000)].map Prod.snd := by decide
theorem test_witness_FrameCheckedByTheMachine :
    ({ sample with requests := [0x0303019D, 0x03010144, 0x04FF0000] } : State).requests =
      [⟨0x03, 0x01, 0x9D⟩, ⟨0x01, 0x01, 0x44⟩].map chkRequest ++ [0x04FF0000] := by decide
theorem test_witness_AssemblerForms :
    (256 ≤ 256 ∨ 256 ≤ 0 ∨ 256 ≤ 0) ∧ assemble (.lut 256) = .error .notWellFormed := by decide
theorem test_witness_PseudoOperations :
    1 ≤ [(⟨0x03, 0x01, 0x9D⟩ : DataWord)].length ∧
    [(⟨0, 0xF0, 3⟩ : DataWord), ⟨3, 0x20, 0x2A⟩, ⟨0, 0x3C, 0x39⟩].length ≤ 3 := by decide
theorem test_witness_CommentsSpellNothing : ∀ c ∈ [' ', '\t'], isBlank c = true := by simp [isBlank]

theorem test_witness_OperationsKeepEverythingElse :
    (∃ t, exec (.gen 0xBE 0xEF 0x00) sample = .next t) ∧ ∃ t, exec (.lut 0xFF 0x00 0x00) sample = .next t :=
  ⟨⟨_, rfl⟩, _, rfl⟩
theorem test_witness_ErrorCodesAndTheirCauses :
    errField (perform .bitwise (0x03#8 ++ 0xBE#8 ++ 0xEF#8 ++ 0x93#8)) = 1 ∧
    errField (perform .bitwise (0x05#8 ++ 0xBE#8 ++ 0xEF#8 ++ 0x92#8)) = 2 ∧
    errField (perform .bitwise (0x00#8 ++ 0x12#8 ++ 0x34#8 ++ 0x56#8)) = 2 := by decide +kernel
theorem test_witness_OnlyCheckedValuesAreUsed :
    mayUseValue 0x03BEEF92 (perform .bitwise 0x03BEEF92) = true ∧
    mayUseValue 0x02BEEF93 (perform .bitwise 0x02BEEF93) = false ∧
    mayUseValue 0x04FF0000 (perform .bitwise 0x04FF0000) = false := by decide +kernel
theorem test_witness_ResponseAfterResetIsAsEver :
    sample.requests = 0x01BEEF00 :: [0x03BEEF93, 0x05BEEF92, 0x04FF0000] := by decide

end Sys2Proof.Tests
end

/-! ### The request word and its operation -/

namespace Sys2Proof

/-- Fields that decode to an operation are that operation's fields: no bit of a request is lost (R41, R45). -/
theorem encodeFields_of_decodeFields {f : Fields} {i : Instr} (h : decodeFields f = .instr i) :
    encodeFields i = f := by
  unfold decodeFields at h
  split_ifs at h with hgen hval hchk hlut <;> cases h
  · rw [encodeFields, ← hgen]
  · rw [encodeFields, ← hval]
  · rw [encodeFields, ← hchk]
  · rw [encodeFields, ← hlut]

/-- Fields that the decoder rejects have a reserved OP (R43, R70). -/
theorem op_of_decodeFields_rejected {f : Fields} {e : DecodeError} (h : decodeFields f = .rejected e) :
    f.op = 0x00 ∨ 0x05 ≤ f.op.toNat := by
  unfold decodeFields opGen opVal opChk opLut at h
  split_ifs at h
  bv_omega

end Sys2Proof

/-! ### The response word -/

namespace Sys2Proof.Machine

section
variable (r : Response)

@[simp] theorem crcField_packResponse : crcField (packResponse r) = r.crc :=
  BitVec.extractLsb'_append_eq_right

@[simp] theorem dataField_packResponse : dataField (packResponse r) = r.data :=
  (BitVec.extractLsb'_append_eq_of_le (by decide)).trans BitVec.extractLsb'_append_eq_right

@[simp] theorem errField_packResponse : errField (packResponse r) = errCode r.err := by
  unfold errField packResponse
  iterate 3 rw [BitVec.extractLsb'_append_eq_of_le (by decide)]
  exact BitVec.extractLsb'_append_eq_right

@[simp] theorem zeroField_packResponse : zeroField (packResponse r) = 0 := by
  unfold zeroField packResponse
  iterate 3 rw [BitVec.extractLsb'_append_eq_of_le (by decide)]
  exact BitVec.extractLsb'_append_eq_left

@[simp] theorem okField_packResponse : okField (packResponse r) = r.ok := by
  have h : BitVec.getLsbD (w := 5 + 2 + 1 + 16 + 8)
      (0b00000#5 ++ errCode r.err ++ BitVec.ofBool r.ok ++ r.data ++ r.crc) 24 = r.ok := by
    simp only [BitVec.getLsbD_append]
    simp
  exact h

end

@[simp] theorem highByte_append (b0 b1 : Byte) : highByte (b0 ++ b1) = b0 :=
  BitVec.extractLsb'_append_eq_left

@[simp] theorem lowByte_append (b0 b1 : Byte) : lowByte (b0 ++ b1) = b1 :=
  BitVec.extractLsb'_append_eq_right

/-! ### Perform -/

/-- The checksum does not depend on the realization (R55). -/
theorem crc8_realization (ρ ρ' : Realization) (b0 b1 : Byte) : crc8 ρ b0 b1 = crc8 ρ' b0 b1 := by
  simp only [crc8, byteStep_eq_bitSteps]

section
variable (ρ : Realization) (b0 b1 ci : Byte)

theorem performFields_gen : performFields ρ (encodeFields (.gen b0 b1 ci)) = genResponse (crc8 ρ b0 b1) :=
  rfl

theorem performFields_val :
    performFields ρ (encodeFields (.val b0 b1 ci)) = valResponse (crc8 ρ b0 b1) ci := rfl

theorem performFields_chk :
    performFields ρ (encodeFields (.chk b0 b1 ci)) = chkResponse (crc8 ρ b0 b1) b0 b1 ci := by
  simp only [chkResponse, okFlag, beq_iff_eq]
  rfl

theorem performFields_lut :
    performFields ρ (encodeFields (.lut b0 b1 ci)) = { defaultResponse with crc := rom b0 } := rfl

end

theorem performFields_reserved (ρ : Realization) {f : Fields} {e : DecodeError}
    (h : decodeFields f = .rejected e) : performFields ρ f = raiseError .illegalOp defaultResponse := by
  unfold decodeFields at h
  split_ifs at h with hgen hval hchk hlut
  exact (if_neg hgen).trans <| (if_neg hval).trans <| (if_neg hchk).trans (if_neg hlut)

/-- An operation answers Perform of its own request, under either realization (R65). -/
theorem exec_eq_perform (ρ : Realization) (i : Instr) (s : State) :
    exec i s = .next { s with
      acc := accAfter i s
      responses := s.responses ++ [packResponse (performFields ρ (encodeFields i))] } := by
  cases i with
  | gen b0 b1 ci => rw [performFields_gen, crc8_realization ρ s.config.realization]; rfl
  | val b0 b1 ci => rw [performFields_val, crc8_realization ρ s.config.realization]; rfl
  | chk b0 b1 ci => rw [performFields_chk, crc8_realization ρ s.config.realization]; rfl
  | lut index b1 ci => rw [performFields_lut, ← romRead_eq_rom s.config.realization]; rfl

/-- A rejected request is answered Perform of it (R70). -/
theorem execRejected_eq_perform (ρ : Realization) {f : Fields} {e : DecodeError}
    (h : decodeFields f = .rejected e) (s : State) :
    execRejected e s = .next { s with
      responses := s.responses ++ [packResponse (performFields ρ f)] } := by
  rw [performFields_reserved ρ h]
  cases e; rfl

/-! ### The step -/

/-- ACC is discarded by the operations with OP 1 to 3 and by no other (R14). -/
theorem accAfter_eq_ite (i : Instr) (s : State) :
    accAfter i s =
      if 1 ≤ (encodeFields i).op.toNat ∧ (encodeFields i).op.toNat ≤ 3 then none else s.acc := by
  cases i <;> rfl

theorem step_idle {s : State} (h : s.requests = []) : step s = .next s := by
  simp [step, takeRequest_nil h, idle]

theorem step_of_instr {s : State} {w : Word} {rest : List Word} {i : Instr}
    (h : s.requests = w :: rest) (hd : decode w = .instr i) :
    step s = exec i { s with requests := rest } := by
  simp [step, takeRequest_cons h, hd]

theorem step_of_rejected {s : State} {w : Word} {rest : List Word} {e : DecodeError}
    (h : s.requests = w :: rest) (hd : decode w = .rejected e) :
    step s = execRejected e { s with requests := rest } := by
  simp [step, takeRequest_cons h, hd]

/-- A step with a request pending takes it, answers Perform of it, and changes nothing else but ACC (R65). -/
theorem step_eq_perform (ρ : Realization) {s : State} {w : Word} {rest : List Word}
    (h : s.requests = w :: rest) :
    step s = .next { s with
      acc := if 1 ≤ (fieldsOf w).op.toNat ∧ (fieldsOf w).op.toNat ≤ 3 then none else s.acc
      requests := rest
      responses := s.responses ++ [perform ρ w] } := by
  cases hd : decodeFields (fieldsOf w) with
  | instr i =>
    rw [step_of_instr h hd, exec_eq_perform ρ, accAfter_eq_ite, encodeFields_of_decodeFields hd]
    rfl
  | rejected e =>
    have hop : ¬ (1 ≤ (fieldsOf w).op.toNat ∧ (fieldsOf w).op.toNat ≤ 3) := by
      obtain hop | hop := op_of_decodeFields_rejected hd
      · simp [hop]
      · omega
    rw [step_of_rejected h hd, execRejected_eq_perform ρ hd, if_neg hop]
    rfl

end Sys2Proof.Machine

/-! ### Legal responses -/

namespace Sys2Proof.Safety

open Sys2Proof.Machine

/-- A response without an error and without a value is legal, whatever its CRC and OK: GEN's, VAL's and LUT's. -/
theorem legalResponse_of_no_value (c : Byte) (ok : Bool) :
    legalResponse (packResponse { defaultResponse with crc := c, ok := ok }) = true := by
  simp [legalResponse, defaultResponse, errCode]

/-- What CHK answers to the checksum of its bytes is legal: a value comes with OK and its own checksum (R68). -/
theorem legalResponse_chkResponse (ρ : Realization) (b0 b1 ci : Byte) :
    legalResponse (packResponse (chkResponse (crc8 ρ b0 b1) b0 b1 ci)) = true := by
  unfold chkResponse
  split
  · simp [legalResponse, defaultResponse, errCode, dataValue, crc8_realization .bitwise ρ]
  · simp [legalResponse, raiseError, errCode]

/-- Every response of the block is legal, to every request (R42, R77). -/
theorem legalResponse_perform (ρ : Realization) (w : Word) : legalResponse (perform ρ w) = true := by
  unfold perform
  cases hd : decodeFields (fieldsOf w) with
  | instr i =>
    rw [← encodeFields_of_decodeFields hd]
    cases i with
    | gen b0 b1 ci => exact legalResponse_of_no_value _ _
    | val b0 b1 ci => exact legalResponse_of_no_value _ _
    | chk b0 b1 ci => rw [performFields_chk]; exact legalResponse_chkResponse ρ b0 b1 ci
    | lut index b1 ci => exact legalResponse_of_no_value _ _
  | rejected e => rw [performFields_reserved ρ hd]; decide

/-- Settles O29: a step adds at most Perform of one request to the responses, and no step starts an accumulator that
the next transaction sees. -/
theorem stepKeepsInvariant : Obligations.StepKeepsInvariant := by
  unfold Obligations.StepKeepsInvariant
  intro s t ⟨hacc, hlegal⟩ hstep
  cases hreq : s.requests with
  | nil =>
    obtain rfl : s = t := by simpa [step_idle hreq] using hstep
    exact ⟨hacc, hlegal⟩
  | cons w rest =>
    rw [step_eq_perform .bitwise hreq] at hstep
    cases hstep
    refine ⟨by simp [hacc], fun r hr => ?_⟩
    obtain hr | hr := List.mem_append.mp hr
    · exact hlegal r hr
    · obtain rfl := List.mem_singleton.mp hr
      exact legalResponse_perform .bitwise w

/-- Settles O30: at reset there is no accumulator and no response. -/
theorem resetMeetsInvariant : Obligations.ResetMeetsInvariant := by
  unfold Obligations.ResetMeetsInvariant
  have hreset (c : Config) : Inv (State.resetWith c) := ⟨resetWith_acc c, by simp⟩
  exact ⟨hreset, hreset defaultConfig⟩

end Sys2Proof.Safety

/-! ### Operations and reset -/

namespace Sys2Proof.Machine

/-- Settles O24: by the whole effect of an operation, `exec_effect`. -/
theorem operationsKeepEverythingElse : Obligations.OperationsKeepEverythingElse := by
  unfold Obligations.OperationsKeepEverythingElse
  intro i s t h
  obtain ⟨r, heffect⟩ := exec_effect i s
  rw [heffect] at h
  cases h
  refine ⟨rfl, rfl, ⟨_, rfl⟩, ?_⟩
  cases i <;> rfl

/-- Settles O25: each accumulator operation's own effect on ACC, from whatever ACC held. -/
theorem accumulatorRunsFreshAndIsDiscarded : Obligations.AccumulatorRunsFreshAndIsDiscarded := by
  unfold Obligations.AccumulatorRunsFreshAndIsDiscarded
  intro b0 b1 s
  refine ⟨accStart_acc s, ?_, ?_, checksum_eq b0 b1 s⟩
  · simp [initValue]
  · simp [crc8]

/-- T's entry at every index is the bitwise form of R53. -/
theorem table_getElem?_eq_bitSteps (i : Byte) : table[i.toNat]? = some (bitSteps 8 i) := by
  rw [List.getElem?_eq_getElem (index_lt_table_length i), ← rom_eq_bitSteps]
  rfl

/-- The first transaction after reset answers Perform of its request, and leaves the block as at reset. -/
theorem step_issue_resetWith (ρ : Realization) (c : Config) (w : Word) :
    step (issue w (State.resetWith c)) = .next { State.resetWith c with responses := [perform ρ w] } := by
  rw [step_eq_perform ρ (issue_requests _ w)]
  simp [State.resetWith, issue]

/-- Settles O45: before and after reset the response is Perform of the oldest request. -/
theorem responseAfterResetIsAsEver : Obligations.ResponseAfterResetIsAsEver := by
  unfold Obligations.ResponseAfterResetIsAsEver
  refine ⟨resetWith_acc, table_getElem?_eq_bitSteps, table_length, step_issue_resetWith, ?_⟩
  intro c s w rest h
  exact ⟨_, _, perform .bitwise w, step_issue_resetWith .bitwise c w, step_eq_perform .bitwise h, rfl, rfl⟩

end Sys2Proof.Machine

/-! ### Runs over the pending requests -/

namespace Sys2Proof.Machine

/-- The response to a request does not depend on the realization (R55). -/
theorem perform_realization (ρ ρ' : Realization) (w : Word) : perform ρ w = perform ρ' w := by
  have hreq := issue_requests (State.resetWith defaultConfig) w
  simpa using (step_eq_perform ρ hreq).symm.trans (step_eq_perform ρ' hreq)

@[simp] theorem run_zero (s : State) : Host.Core.run core 0 s = .next s := rfl

/-- A run's first step, where it gives a next state. -/
theorem run_succ_of_step {s t : State} (h : step s = .next t) (k : Nat) :
    Host.Core.run core (k + 1) s = Host.Core.run core k t := by
  have hcore : core.step s = .next t := h
  simp only [Host.Core.run, hcore]

/-- As many steps as the oldest requests `ws` count answer each of these with Perform of it, in their order, and leave
the requests behind them pending (R33). No step starts an ACC that the next one sees. -/
theorem run_answers_oldest (ρ : Realization) {rest : List Word} {ws : List Word} {s : State}
    (h : s.requests = ws ++ rest) :
    ∃ acc : Option Byte, (s.acc = none → acc = none) ∧
      Host.Core.run core ws.length s = .next { s with
        acc := acc
        requests := rest
        responses := s.responses ++ ws.map (perform ρ) } := by
  induction ws generalizing s with
  | nil =>
    obtain rfl : s.requests = rest := h
    exact ⟨s.acc, id, by simp⟩
  | cons w ws ih =>
    rw [List.cons_append] at h
    obtain ⟨acc, hacc, hrun⟩ := ih (s := { s with
      acc := if 1 ≤ (fieldsOf w).op.toNat ∧ (fieldsOf w).op.toNat ≤ 3 then none else s.acc
      requests := ws ++ rest
      responses := s.responses ++ [perform ρ w] }) rfl
    refine ⟨acc, fun hnone => hacc (by simp [hnone]), ?_⟩
    rw [List.length_cons, run_succ_of_step (step_eq_perform ρ h), hrun]
    simp

/-- Settles O28: the whole queue is its own oldest part, with nothing behind it. -/
theorem queueAnsweredInOrder : Obligations.QueueAnsweredInOrder := by
  unfold Obligations.QueueAnsweredInOrder
  intro ρ s hnone
  obtain ⟨acc, hacc, hrun⟩ := run_answers_oldest ρ (List.append_nil s.requests).symm
  rw [hrun, hacc hnone, hnone]

/-- Answers that are a function of each element give, for the elements a test selects, the function of those. -/
theorem filter_zip_map_snd {α β : Type} (p : α → Bool) (f : α → β) (q : List α) :
    ((q.zip (q.map f)).filter fun x => p x.1).map Prod.snd = (q.filter p).map f := by
  induction q with
  | nil => rfl
  | cons x q ih => cases h : p x <;> simp [h, ih]

/-- Settles O36: every request is answered Perform of itself, so the answers of one requester's requests are Perform of
these, whoever else's stand between them. -/
theorem requestersDoNotDisturbEachOther : Obligations.RequestersDoNotDisturbEachOther := by
  unfold Obligations.RequestersDoNotDisturbEachOther
  intro s q hq
  obtain ⟨acc, -, hrun⟩ := run_answers_oldest .bitwise (hq.trans (List.append_nil _).symm)
  rw [List.length_map, List.map_map] at hrun
  refine ⟨_, _, hrun, rfl, List.length_map _, fun ρ who => ?_⟩
  rw [funext (perform_realization ρ .bitwise)]
  exact filter_zip_map_snd (fun x => x.1 == who) (perform .bitwise ∘ Prod.snd) q

end Sys2Proof.Machine

/-! ### The encoding of a request -/

namespace Sys2Proof

@[simp] theorem decodeFields_encodeFields (i : Instr) : decodeFields (encodeFields i) = .instr i := by
  cases i <;> rfl

@[simp] theorem decode_encode (i : Instr) : decode (encode i) = .instr i := by
  rw [decode, encode, fieldsOf_wordOf, decodeFields_encodeFields]

/-- A word that decodes to an operation is that operation's request, its don't-care bytes included (R45). -/
theorem encode_of_decode {w : Word} {i : Instr} (h : decode w = .instr i) : encode i = w := by
  rw [encode, encodeFields_of_decodeFields h, wordOf_fieldsOf]

/-- Settles O3: words and fields, and the fields with an OP of the table and operations, determine each other. -/
theorem decodeEncodeAgree : Obligations.DecodeEncodeAgree := by
  unfold Obligations.DecodeEncodeAgree
  exact ⟨fun i _ => decode_encode i, fun _ _ => encode_of_decode⟩

/-- Four bytes written one after the other are the fields of their word (R41). -/
@[simp] theorem fieldsOf_append (op b0 b1 ci : Byte) : fieldsOf (op ++ b0 ++ b1 ++ ci) = ⟨op, b0, b1, ci⟩ :=
  fieldsOf_wordOf ⟨op, b0, b1, ci⟩

/-- A reserved OP is none of the opcode table's (R43). -/
theorem op_ne_of_reserved {op : Byte} (h : op = 0x00 ∨ 0x05 ≤ op.toNat) :
    op ≠ 0x01#8 ∧ op ≠ 0x02#8 ∧ op ≠ 0x03#8 ∧ op ≠ 0x04#8 := by
  refine ⟨?_, ?_, ?_, ?_⟩ <;> rintro rfl <;> exact absurd h (by decide)

/-- A reserved OP is rejected by its name, whatever the payload (R43, R45). -/
theorem decodeFields_of_reserved {f : Fields} (h : f.op = 0x00 ∨ 0x05 ≤ f.op.toNat) :
    decodeFields f = .rejected (.reservedOp f.op) := by
  obtain ⟨hgen, hval, hchk, hlut⟩ := op_ne_of_reserved h
  exact (if_neg hgen).trans <| (if_neg hval).trans <| (if_neg hchk).trans (if_neg hlut)

/-- Settles O4: a word with an OP of the table is an operation's request, and any other OP is reserved. -/
theorem opcodeMapSelectsOperation : Obligations.OpcodeMapSelectsOperation := by
  unfold Obligations.OpcodeMapSelectsOperation
  constructor
  · intro b0 b1 ci
    exact ⟨decode_encode (.gen b0 b1 ci), decode_encode (.val b0 b1 ci), decode_encode (.chk b0 b1 ci),
      decode_encode (.lut b0 b1 ci)⟩
  · intro op b0 b1 ci hop
    rw [decode, fieldsOf_append, decodeFields_of_reserved hop]

/-- Settles O2: six fixed words, evaluated. -/
theorem writtenWordsDecode : Obligations.WrittenWordsDecode := by
  unfold Obligations.WrittenWordsDecode
  decide

/-- Under any OP, the packed DataWord is its three bytes in the request's payload (R41). -/
theorem append_packDataWord (op : Byte) (d : DataWord) :
    op ++ packDataWord d = (op ++ d.b0 ++ d.b1 ++ d.crc : Word) := by
  simp only [packDataWord, BitVec.append_assoc, BitVec.cast_eq]

@[simp] theorem unpackDataWord_packDataWord (d : DataWord) : unpackDataWord (packDataWord d) = d := by
  have hb0 : (packDataWord d).extractLsb' 16 8 = d.b0 :=
    (BitVec.extractLsb'_append_eq_of_le (by decide)).trans BitVec.extractLsb'_append_eq_left
  have hb1 : (packDataWord d).extractLsb' 8 8 = d.b1 :=
    (BitVec.extractLsb'_append_eq_of_le (by decide)).trans BitVec.extractLsb'_append_eq_right
  have hcrc : (packDataWord d).extractLsb' 0 8 = d.crc := BitVec.extractLsb'_append_eq_right
  rw [unpackDataWord, hb0, hb1, hcrc]

/-- Settles O5: a request is four bytes, the last three of them a packed DataWord. -/
theorem requestPayloadIsPackedDataWord : Obligations.RequestPayloadIsPackedDataWord := by
  unfold Obligations.RequestPayloadIsPackedDataWord
  refine ⟨fieldsOf_append, fun op d => ?_, unpackDataWord_packDataWord, fun d => ⟨?_, ?_⟩⟩
  · rw [append_packDataWord, fieldsOf_append]
  · exact (append_packDataWord opVal d).symm
  · exact (append_packDataWord opChk d).symm

end Sys2Proof

/-! ### Frames on the wire -/

namespace Sys2Proof

theorem length_wireBytes (ds : List DataWord) : (wireBytes ds).length = 3 * ds.length := by
  induction ds with
  | nil => rfl
  | cons d ds ih => simp [wireBytes, ih]; omega

theorem dataWords_wireBytes (ds : List DataWord) : dataWords (wireBytes ds) = some ds := by
  induction ds with
  | nil => rfl
  | cons d ds ih => simp [wireBytes, dataWords, ih]

theorem wireBytes_of_dataWords {bytes : List Byte} {ds : List DataWord} (h : dataWords bytes = some ds) :
    bytes = wireBytes ds := by
  induction bytes using dataWords.induct generalizing ds with
  | case1 => cases h; rfl
  | case2 b0 b1 crc rest ih =>
    rw [dataWords, Option.map_eq_some_iff] at h
    obtain ⟨more, hmore, rfl⟩ := h
    rw [wireBytes, ← ih hmore]
  | case3 bytes hnil hcons => simp [dataWords] at h

/-- Bytes are cut into DataWords exactly as those are sent, with no padding (R30, R38). -/
theorem dataWords_eq_some_iff {bytes : List Byte} {ds : List DataWord} :
    dataWords bytes = some ds ↔ bytes = wireBytes ds :=
  ⟨wireBytes_of_dataWords, fun h => h ▸ dataWords_wireBytes ds⟩

/-- Settles O6: the words of some bytes are those they are sent as, and a frame's length in bytes is three times that in
words. -/
theorem frameBytesAreItsWords : Obligations.FrameBytesAreItsWords := by
  unfold Obligations.FrameBytesAreItsWords
  intro k bytes ds
  rw [parseFrame, Option.ite_none_right_eq_some, dataWords_eq_some_iff, and_comm]
  refine and_congr_right fun hbytes => ?_
  rw [hbytes, length_wireBytes]
  omega

end Sys2Proof

/-! ### The response to a request written as its bytes -/

namespace Sys2Proof.Machine

/-- Settles O7: field by field. -/
theorem responseFieldsReadBack : Obligations.ResponseFieldsReadBack := by
  unfold Obligations.ResponseFieldsReadBack
  intro r
  exact ⟨crcField_packResponse r, dataField_packResponse r, okField_packResponse r, errField_packResponse r,
    zeroField_packResponse r⟩

section
variable (ρ : Realization) (op b0 b1 ci : Byte)

theorem perform_append :
    perform ρ (op ++ b0 ++ b1 ++ ci) = packResponse (performFields ρ ⟨op, b0, b1, ci⟩) := by
  rw [perform, fieldsOf_append]

theorem perform_gen :
    perform ρ (0x01#8 ++ b0 ++ b1 ++ ci) = packResponse (genResponse (crc8 ρ b0 b1)) :=
  perform_append ρ opGen b0 b1 ci

theorem perform_lut :
    perform ρ (0x04#8 ++ b0 ++ b1 ++ ci) = packResponse { defaultResponse with crc := rom b0 } :=
  perform_append ρ opLut b0 b1 ci

end

/-- Settles O34: one case for each operation, and one for the reserved OPs. -/
theorem responseFieldsOfEveryRequest : Obligations.ResponseFieldsOfEveryRequest := by
  unfold Obligations.ResponseFieldsOfEveryRequest
  intro ρ op b0 b1 ci
  simp only [perform_append, crcField_packResponse, dataField_packResponse, okField_packResponse,
    errField_packResponse, zeroField_packResponse]
  cases hd : decodeFields ⟨op, b0, b1, ci⟩ with
  | instr i =>
    have hfields := encodeFields_of_decodeFields hd
    cases i with
    | gen =>
      rw [← hfields, performFields_gen]
      cases hfields
      simp [genResponse, defaultResponse, errCode, opGen]
    | val =>
      rw [← hfields, performFields_val]
      cases hfields
      simp [valResponse, okFlag, defaultResponse, errCode, opVal]
    | chk =>
      rw [← hfields, performFields_chk]
      cases hfields
      by_cases hvalid : crc8 ρ b0 b1 = ci
      · simp [chkResponse, okFlag, hvalid, dataValue, defaultResponse, errCode, opChk]
      · simp [chkResponse, okFlag, hvalid, raiseError, errCode, opChk]
    | lut =>
      rw [← hfields, performFields_lut]
      cases hfields
      simp [defaultResponse, errCode, opLut]
  | rejected e =>
    obtain ⟨hgen, hval, hchk, hlut⟩ := op_ne_of_reserved (op_of_decodeFields_rejected hd)
    rw [performFields_reserved ρ hd]
    simp [hgen, hval, hchk, hlut, raiseError, defaultResponse, errCode]

/-- Settles O26: what GEN answers does not name CI, and what LUT answers neither B1 nor CI. -/
theorem dontCareFieldsIgnored : Obligations.DontCareFieldsIgnored := by
  unfold Obligations.DontCareFieldsIgnored
  refine ⟨fun _ _ _ _ _ => rfl, fun _ _ _ _ _ _ => rfl, fun ρ b0 b1 ci ci' => ⟨?_, ?_⟩⟩
  · rw [perform_gen, perform_gen]
  · rw [perform_lut, perform_lut]

/-- Settles O1: fixed lines and words, evaluated for one realization, since the response depends on neither (R55). -/
theorem workedEncodingsAnswered : Obligations.WorkedEncodingsAnswered := by
  unfold Obligations.WorkedEncodingsAnswered
  intro ρ
  rw [funext (perform_realization ρ .bitwise)]
  decide +kernel

end Sys2Proof.Machine

/-! ### The assembler: a line to its requests -/

namespace Sys2Proof.Machine

theorem assemble_of_wellFormed {a : Asm} (h : a.wellFormed = true) : assemble a = .ok (expandAsm a) :=
  if_pos h

theorem assemble_eq_error_iff {a : Asm} : assemble a = .error .notWellFormed ↔ a.wellFormed = false := by
  simp [assemble]

theorem byteLiteral_eq_false_iff {n : Nat} : byteLiteral n = false ↔ 256 ≤ n := by
  simp [byteLiteral]

section
variable (b b0 b1 c : Byte) (w : Half)

@[simp] theorem byteLiteral_toNat : byteLiteral b.toNat = true := decide_eq_true b.isLt

@[simp] theorem halfLiteral_toNat : halfLiteral w.toNat = true := decide_eq_true w.isLt

@[simp] theorem literalByte_toNat : literalByte b.toNat = b := by simp [literalByte]

theorem assemble_gen : assemble (.gen b0.toNat b1.toNat) = .ok [encode (.gen b0 b1 0x00)] := by
  simp [assemble, Asm.wellFormed, expandAsm]

theorem assemble_val : assemble (.val b0.toNat b1.toNat c.toNat) = .ok [encode (.val b0 b1 c)] := by
  simp [assemble, Asm.wellFormed, expandAsm]

theorem assemble_chk : assemble (.chk b0.toNat b1.toNat c.toNat) = .ok [encode (.chk b0 b1 c)] := by
  simp [assemble, Asm.wellFormed, expandAsm]

theorem assemble_lut : assemble (.lut b.toNat) = .ok [encode (.lut b 0x00 0x00)] := by
  simp [assemble, Asm.wellFormed, expandAsm]

theorem assemble_req (word : Word) : assemble (.req word.toNat) = .ok [word] := by
  have hword : (Asm.req word.toNat).wellFormed = true := decide_eq_true word.isLt
  rw [assemble_of_wellFormed hword, expandAsm, BitVec.ofNat_toNat, BitVec.setWidth_eq]

@[simp] theorem byteLiteral_toNat_div : byteLiteral (w.toNat / 256) = true := decide_eq_true (by omega)

@[simp] theorem byteLiteral_toNat_mod : byteLiteral (w.toNat % 256) = true := decide_eq_true (by omega)

/-- A u16's quotient by 256 spells its high byte (R48). -/
@[simp] theorem literalByte_toNat_div : literalByte (w.toNat / 256) = highByte w := by
  apply BitVec.eq_of_toNat_eq
  simp [literalByte, highByte, Nat.shiftRight_eq_div_pow]

/-- A u16's remainder by 256 spells its low byte (R48). -/
@[simp] theorem literalByte_toNat_mod : literalByte (w.toNat % 256) = lowByte w := by
  apply BitVec.eq_of_toNat_eq
  simp [literalByte, lowByte]

end

/-- Settles O41: a byte's value is a literal that spells it, and one literal out of range makes its line ill-formed. -/
theorem assemblerFormsSpellRequests : Obligations.AssemblerFormsSpellRequests := by
  unfold Obligations.AssemblerFormsSpellRequests
  refine ⟨fun b0 b1 c => ?_, assemble_req, fun b0 b1 c h => ?_⟩
  · exact ⟨assemble_gen b0 b1, assemble_val b0 b1 c, assemble_chk b0 b1 c, assemble_lut b0⟩
  · simp only [assemble_eq_error_iff, Asm.wellFormed, Bool.and_eq_false_iff, byteLiteral_eq_false_iff, or_assoc]
    exact ⟨h, h, id, id⟩

/-- The CHK operations of a frame's bytes are those of its words, in frame order (R48). -/
theorem expandFrame_wireBytes (ds : List DataWord) :
    expandFrame ((wireBytes ds).map BitVec.toNat) = ds.map fun d => .chk d.b0 d.b1 d.crc := by
  induction ds with
  | nil => rfl
  | cons d ds ih => simp [wireBytes, expandFrame, ih]

theorem wellFormed_chkf_wireBytes {ds : List DataWord} (h1 : 1 ≤ ds.length) (h3 : ds.length ≤ 3) :
    (Asm.chkf ds.length ((wireBytes ds).map BitVec.toNat)).wellFormed = true := by
  simp [Asm.wellFormed, h1, h3, length_wireBytes]

/-- Settles O42: the quotient and the remainder by 256 are literals of the two bytes, and a frame's bytes are checked
word by word. -/
theorem pseudoOperationsExpand : Obligations.PseudoOperationsExpand := by
  unfold Obligations.PseudoOperationsExpand
  refine ⟨fun w c => ⟨?genw, ?valw, ?chkw⟩, fun ds h1 h3 => ?chkf⟩
  case genw => simp [assemble, Asm.wellFormed, expandAsm]
  case valw => simp [assemble, Asm.wellFormed, expandAsm]
  case chkw => simp [assemble, Asm.wellFormed, expandAsm]
  case chkf =>
    rw [assemble_of_wellFormed (wellFormed_chkf_wireBytes h1 h3), expandAsm, expandFrame_wireBytes, List.map_map]
    rfl

end Sys2Proof.Machine

/-! ### The assembler: comments -/

namespace Sys2Proof.Machine

/-- The part of a line before its first `;` does not depend on what follows a `;`. -/
theorem takeWhile_append_comment (line comment : List Char) :
    (line ++ ';' :: comment).takeWhile (fun c => c != ';') = line.takeWhile fun c => c != ';' := by
  induction line with
  | nil => rfl
  | cons c line ih => simp [List.takeWhile_cons, ih]

theorem assembleLine_append_comment (line comment : List Char) :
    assembleLine (line ++ ';' :: comment) = assembleLine line := by
  simp only [assembleLine, takeWhile_append_comment]

theorem trimBlanks_of_all_blank {cs : List Char} (h : ∀ c ∈ cs, isBlank c = true) : trimBlanks cs = [] := by
  simp [trimBlanks, List.dropWhile_eq_nil_iff.mpr h]

theorem assembleLine_of_all_blank {line : List Char} (h : ∀ c ∈ line, isBlank c = true) :
    assembleLine line = .ok [] := by
  have hcode : trimBlanks (line.takeWhile fun c => c != ';') = [] :=
    trimBlanks_of_all_blank fun c hc => h c ((List.takeWhile_prefix _).subset hc)
  simp [assembleLine, hcode]

/-- Settles O43: a comment falls away, and a line of blanks, with it or without, spells no request. -/
theorem commentsSpellNothing : Obligations.CommentsSpellNothing := by
  unfold Obligations.CommentsSpellNothing
  refine ⟨assembleLine_append_comment, fun blanks comment h => ?_⟩
  rw [assembleLine_append_comment, assembleLine_of_all_blank h]

end Sys2Proof.Machine

/-! ### The bit step: linear, injective, and what it does in nine bits -/

namespace Sys2Proof.Machine

theorem bitStep_of_high {r : Byte} (h : r.getLsbD 7 = true) : bitStep r = r <<< 1 ^^^ poly := if_pos h

theorem bitStep_of_low {r : Byte} (h : r.getLsbD 7 = false) : bitStep r = r <<< 1 :=
  if_neg (Bool.eq_false_iff.mp h)

/-- The branch of R51 as a term of a XOR. -/
theorem bitStep_eq_xor (r : Byte) : bitStep r = r <<< 1 ^^^ (if r.getLsbD 7 then poly else 0) := by
  cases h : r.getLsbD 7
  · rw [bitStep_of_low h]; exact BitVec.xor_zero.symm
  · exact bitStep_of_high h

/-- R60's first equation: the shift is linear, and so is the choice of whether to fold the polynomial in. -/
theorem bitStep_xor (x y : Byte) : bitStep (x ^^^ y) = bitStep x ^^^ bitStep y := by
  have hfold : ∀ a b : Bool,
      (if a ^^ b then poly else 0) = (if a then poly else 0) ^^^ (if b then poly else 0) := by decide
  simp only [bitStep_eq_xor, BitVec.shiftLeft_xor_distrib, BitVec.getLsbD_xor, hfold]
  ac_rfl

/-- The polynomial's constant term is 1, so the bit shifted out reappears as bit 0. -/
theorem getLsbD_bitStep_zero (r : Byte) : (bitStep r).getLsbD 0 = r.getLsbD 7 := by
  cases h : r.getLsbD 7
  · simp [bitStep_of_low h]
  · simp [bitStep_of_high h, poly]

theorem eq_zero_of_bitStep_eq_zero {r : Byte} (h : bitStep r = 0) : r = 0 := by
  have h7 : r.getLsbD 7 = false := by rw [← getLsbD_bitStep_zero, h]; rfl
  rw [bitStep_of_low h7] at h
  refine BitVec.eq_of_getLsbD_eq fun i hi => ?_
  obtain rfl | hlt : i = 7 ∨ i + 1 < 8 := by omega
  · exact h7
  · rw [BitVec.getLsbD_eq_getElem hi]
    simpa [hlt] using congrArg (·.getLsbD (i + 1)) h

theorem bitSteps_xor (n : Nat) (x y : Byte) : bitSteps n (x ^^^ y) = bitSteps n x ^^^ bitSteps n y := by
  induction n generalizing x y with
  | zero => rfl
  | succ n ih => simp only [bitSteps, bitStep_xor, ih]

theorem bitSteps_add (m n : Nat) (r : Byte) : bitSteps (m + n) r = bitSteps n (bitSteps m r) := by
  induction m generalizing r with
  | zero => rw [Nat.zero_add]; rfl
  | succ m ih => rw [Nat.succ_add]; exact ih _

theorem bitSteps_bitStep (n : Nat) (r : Byte) : bitSteps n (bitStep r) = bitStep (bitSteps n r) :=
  bitSteps_add n 1 r

theorem bitSteps_eq_zero_iff {n : Nat} {r : Byte} : bitSteps n r = 0 ↔ r = 0 := by
  refine ⟨fun h => ?_, fun h => h ▸ bitSteps_zero n⟩
  induction n generalizing r with
  | zero => exact h
  | succ n ih => exact eq_zero_of_bitStep_eq_zero (ih h)

/-- A linear map that takes only 0 to 0 is injective. -/
theorem bitSteps_injective (n : Nat) : Function.Injective (bitSteps n) := fun x y h => by
  have hzero : bitSteps n (x ^^^ y) = 0 := by rw [bitSteps_xor, h]; exact BitVec.xor_self
  exact BitVec.xor_eq_zero_iff.mp (bitSteps_eq_zero_iff.mp hzero)

/-- Settles O8: in nine bits the polynomial's top bit cancels the bit shifted into place 8, and below it 0x131 is
0x31. -/
theorem bitStepFoldsShiftedOutBit : Obligations.BitStepFoldsShiftedOutBit := by
  unfold Obligations.BitStepFoldsShiftedOutBit
  refine ⟨fun r => ?_, by decide⟩
  have hpoly : ∀ (i : Nat) (_ : i < 8), (0x31#9)[i] = (0x131#9)[i] := by decide
  ext i hi
  have hprev : r.getLsbD (i - 1) = r[i - 1] := BitVec.getLsbD_eq_getElem (by omega)
  obtain rfl | hlt : i = 8 ∨ i < 8 := by omega
  · cases h : r.getLsbD 7
    · simpa [bitStep_of_low h] using h
    · simpa [bitStep_of_high h, poly] using h
  · cases h : r.getLsbD 7
    · simp [bitStep_of_low h, hlt, hprev]
    · simp [bitStep_of_high h, hlt, hprev, poly, hpoly i hlt]

end Sys2Proof.Machine

/-! ### The table and the checksum in bit steps -/

namespace Sys2Proof.Machine

theorem crc8_eq_bitSteps (ρ : Realization) (b0 b1 : Byte) :
    crc8 ρ b0 b1 = bitSteps 8 (bitSteps 8 (initValue ^^^ b0) ^^^ b1) := by
  simp only [crc8, byteStep_eq_bitSteps]

/-- The checksum's linear part, and the constant 0x81 that INIT adds to it (R60). -/
theorem crc8_eq_xor (ρ : Realization) (b0 b1 : Byte) :
    crc8 ρ b0 b1 = bitSteps 16 b0 ^^^ bitSteps 8 b1 ^^^ 0x81 := by
  have hinit : bitSteps 8 (bitSteps 8 initValue) = 0x81 := by decide +kernel
  have htwice : bitSteps 16 b0 = bitSteps 8 (bitSteps 8 b0) := bitSteps_add 8 8 b0
  rw [crc8_eq_bitSteps, bitSteps_xor, bitSteps_xor, bitSteps_xor, hinit, htwice]
  ac_rfl

/-- R60's third equation, on bytes. -/
theorem crc8_xor (ρ : Realization) (a0 a1 e0 e1 : Byte) :
    crc8 ρ (a0 ^^^ e0) (a1 ^^^ e1) = crc8 ρ a0 a1 ^^^ crc8 ρ e0 e1 ^^^ 0x81 := by
  have hcancel (x : Byte) : x ^^^ 0x81 ^^^ 0x81 = x := by
    rw [BitVec.xor_assoc, BitVec.xor_self, BitVec.xor_zero]
  rw [crc8_eq_xor ρ e0 e1, ← BitVec.xor_assoc, hcancel, crc8_eq_xor, crc8_eq_xor, bitSteps_xor, bitSteps_xor]
  ac_rfl

theorem rom_bijective : Function.Bijective rom := by
  rw [← Finite.injective_iff_bijective, funext rom_eq_bitSteps]
  exact bitSteps_injective 8

theorem crc8_right_bijective (ρ : Realization) (b0 : Byte) : Function.Bijective (crc8 ρ b0) := by
  refine Finite.injective_iff_bijective.mp fun x y h => ?_
  rw [crc8_eq_bitSteps, crc8_eq_bitSteps] at h
  exact (BitVec.xor_right_inj _).mp (bitSteps_injective 8 h)

/-- Settles O9: 256 fixed entries, evaluated. -/
theorem tableHoldsListedEntries : Obligations.TableHoldsListedEntries := by
  unfold Obligations.TableHoldsListedEntries
  decide +kernel

/-- Settles O10: both realizations are the same eight bit steps. -/
theorem realizationsAgree : Obligations.RealizationsAgree := by
  unfold Obligations.RealizationsAgree
  exact ⟨byteStep_eq_bitSteps .table, crc8_realization .table .bitwise⟩

/-- Settles O11: the closed form for all bytes; the fixed values are evaluated under each realization. -/
theorem checksumClosedForm : Obligations.ChecksumClosedForm := by
  unfold Obligations.ChecksumClosedForm
  intro ρ
  refine ⟨fun b0 b1 => ?_, ?_⟩
  · simp only [crc8_eq_bitSteps, rom_eq_bitSteps, initValue]
  · cases ρ <;> decide +kernel

/-- Settles O12: one fixed run of the bit step, evaluated. -/
theorem traceOfWorkedExample : Obligations.TraceOfWorkedExample := by
  unfold Obligations.TraceOfWorkedExample
  decide +kernel

/-- Settles O13: a word's bytes are XORed one by one. -/
theorem checksumIsAffine : Obligations.ChecksumIsAffine := by
  unfold Obligations.ChecksumIsAffine
  refine ⟨bitStep_xor, fun x y => ?_, fun ρ a e => ?_⟩
  · simp only [rom_eq_bitSteps, bitSteps_xor]
  · simp only [Safety.crcOf, highByte, lowByte, BitVec.extractLsb'_xor, crc8_xor]

/-- Settles O14: the last byte step is eight bit steps of the checksum XORed with `c`, and they give 0 to 0 only. -/
theorem residueIsZeroIffValid : Obligations.ResidueIsZeroIffValid := by
  unfold Obligations.ResidueIsZeroIffValid
  intro ρ b0 b1 c
  have hzero : byteStep ρ (byteStep ρ (byteStep ρ 0xFF b0) b1) c = 0x00 ↔ c = crc8 ρ b0 b1 := by
    change byteStep ρ (crc8 ρ b0 b1) c = 0 ↔ _
    rw [byteStep_eq_bitSteps, bitSteps_eq_zero_iff, eq_comm (a := c)]
    exact BitVec.xor_eq_zero_iff
  refine ⟨hzero, ?_⟩
  simp only [hzero, okFlag, eq_comm (a := c)]
  rfl

end Sys2Proof.Machine

/-! ### How the checksums are distributed -/

namespace Sys2Proof.Safety

open Sys2Proof.Machine

theorem highByte_append_lowByte (w : Half) : (highByte w ++ lowByte w : Half) = w := by
  have h : (w.extractLsb' 8 8 ++ w.extractLsb' 0 8 : BitVec (8 + 8)) = w.extractLsb' 0 (8 + 8) :=
    BitVec.extractLsb'_append_extractLsb'_eq_extractLsb' rfl
  exact h.trans BitVec.extractLsb'_eq_self

/-- To count among the numbers below 2^w is to count among the words of w bits. -/
theorem card_filter_range_ofNat (w : Nat) (p : BitVec w → Prop) [DecidablePred p] :
    ((Finset.range (2 ^ w)).filter fun n => p (BitVec.ofNat w n)).card = (Finset.univ.filter p).card := by
  refine Finset.card_nbij' (BitVec.ofNat w) BitVec.toNat
    (fun n hn => ?_) (fun x hx => ?_) (fun n hn => ?_) fun x _ => ?_
  · simpa using (Finset.mem_filter.mp hn).2
  · simpa [x.isLt] using hx
  · simpa using Nat.mod_eq_of_lt (Finset.mem_range.mp (Finset.mem_filter.mp hn).1)
  · simp

/-- A word with a given checksum is its high byte: each row of the checksum takes each value once. -/
theorem card_filter_crcOf (ρ : Realization) (c : Byte) :
    (Finset.univ.filter fun w : Half => crcOf ρ w = c).card = 256 := by
  have hbytes : Fintype.card Byte = 256 :=
    (Fintype.card_congr BitVec.equivFin.toEquiv).trans (Fintype.card_fin (2 ^ 8))
  rw [← hbytes, ← Finset.card_univ]
  refine Finset.card_nbij highByte (fun _ _ => Finset.mem_univ _) (fun v hv w hw h => ?_) fun b0 _ => ?_
  · have hcrc : crcOf ρ v = crcOf ρ w := (Finset.mem_filter.mp hv).2.trans (Finset.mem_filter.mp hw).2.symm
    rw [crcOf, crcOf, h] at hcrc
    have hlow : lowByte v = lowByte w := (crc8_right_bijective ρ (highByte w)).injective hcrc
    rw [← highByte_append_lowByte v, h, hlow, highByte_append_lowByte]
  · obtain ⟨b1, hb1⟩ := (crc8_right_bijective ρ b0).surjective c
    have hcrc : crcOf ρ (b0 ++ b1) = c := by rw [crcOf, highByte_append, lowByte_append, hb1]
    exact ⟨b0 ++ b1, Finset.mem_filter.mpr ⟨Finset.mem_univ _, hcrc⟩, highByte_append b0 b1⟩

theorem card_filter_validWord (ρ : Realization) (b0 b1 : Byte) :
    (Finset.univ.filter fun c => validWord ρ ⟨b0, b1, c⟩ = true).card = 1 := by
  refine Finset.card_eq_one.mpr ⟨crc8 ρ b0 b1, Finset.ext fun c => ?_⟩
  rw [Finset.mem_filter_univ, Finset.mem_singleton, validWord, beq_iff_eq, eq_comm]

/-- Settles O16: the bit steps are injective, so T and each row are; the counts follow. -/
theorem checksumsEvenlyDistributed : Obligations.ChecksumsEvenlyDistributed := by
  unfold Obligations.ChecksumsEvenlyDistributed
  refine ⟨rom_bijective, fun ρ => ⟨crc8_right_bijective ρ, fun c => ?_, fun b0 b1 => ?_⟩⟩
  · exact (card_filter_range_ofNat 16 fun w => crcOf ρ w = c).trans (card_filter_crcOf ρ c)
  · exact (card_filter_range_ofNat 8 fun c => validWord ρ ⟨b0, b1, c⟩ = true).trans
      (card_filter_validWord ρ b0 b1)

end Sys2Proof.Safety

/-! ### Parity: a valid word has an even number of bits -/

namespace Sys2Proof.Safety

open Sys2Proof.Machine

/-- `weight` at any width. -/
def bitCount {n : Nat} (x : BitVec n) : Nat := (List.range n).countP fun k => x.getLsbD k

theorem weight_eq_bitCount (e : BitVec 24) : weight e = bitCount e := rfl

theorem countP_xor_mod_two {α : Type} (p q : α → Bool) (l : List α) :
    l.countP (fun a => p a ^^ q a) % 2 = (l.countP p + l.countP q) % 2 := by
  induction l with
  | nil => rfl
  | cons a l ih =>
    have hbit : ∀ x y : Bool,
        (if (x ^^ y) = true then 1 else 0) % 2 = ((if x = true then 1 else 0) + if y = true then 1 else 0) % 2 := by
      decide
    have ha := hbit (p a) (q a)
    simp only [List.countP_cons]
    omega

theorem bitCount_xor_mod_two {n : Nat} (x y : BitVec n) :
    bitCount (x ^^^ y) % 2 = (bitCount x + bitCount y) % 2 := by
  simpa only [bitCount, BitVec.getLsbD_xor] using countP_xor_mod_two x.getLsbD y.getLsbD (List.range n)

theorem bitCount_append {m n : Nat} (x : BitVec m) (y : BitVec n) :
    bitCount (x ++ y) = bitCount x + bitCount y := by
  have hlow : (List.range n).countP (fun k => (x ++ y).getLsbD k) = bitCount y :=
    List.countP_congr fun k hk => by simp [BitVec.getLsbD_append, List.mem_range.mp hk]
  have hhigh : (List.range m).countP (fun k => (x ++ y).getLsbD (n + k)) = bitCount x :=
    List.countP_congr fun k _ => by simp [BitVec.getLsbD_append]
  have hrange : List.range (m + n) = List.range n ++ (List.range m).map (n + ·) := by
    rw [Nat.add_comm, List.range_add]
  rw [bitCount, hrange, List.countP_append, List.countP_map, hlow, Nat.add_comm, ← hhigh]
  rfl

/-- A shift by one loses the top bit and no other. -/
theorem bitCount_shiftLeft_one {n : Nat} (x : BitVec (n + 1)) :
    bitCount x = bitCount (x <<< 1) + (x.getLsbD n).toNat := by
  have hshift : bitCount (x <<< 1) = (List.range n).countP fun k => x.getLsbD k := by
    rw [bitCount, List.range_succ_eq_map, List.countP_cons, List.countP_map]
    simp only [BitVec.getLsbD_shiftLeft]
    refine (Nat.add_eq_left.mpr (by simp)).trans (List.countP_congr fun k hk => ?_)
    simp [List.mem_range.mp hk]
  rw [hshift, bitCount, List.range_succ, List.countP_append, List.countP_singleton]
  cases x.getLsbD n <;> rfl

/-- The polynomial 0x131 has four terms, so the bit shifted out comes back as three. -/
theorem bitCount_bitStep_mod_two (r : Byte) : bitCount (bitStep r) % 2 = bitCount r % 2 := by
  have hshift := bitCount_shiftLeft_one r
  have hpoly : bitCount poly = 3 := by decide
  cases h : r.getLsbD 7
  · rw [bitStep_of_low h, hshift, h]; rfl
  · rw [bitStep_of_high h, bitCount_xor_mod_two, hpoly, hshift, h, Bool.toNat_true]
    omega

theorem bitCount_bitSteps_mod_two (n : Nat) (r : Byte) : bitCount (bitSteps n r) % 2 = bitCount r % 2 := by
  induction n generalizing r with
  | zero => rfl
  | succ n ih => exact (ih _).trans (bitCount_bitStep_mod_two r)

/-- The checksum has the parity of its data: the constant 0x81 has two bits. -/
theorem bitCount_crc8_mod_two (ρ : Realization) (b0 b1 : Byte) :
    bitCount (crc8 ρ b0 b1) % 2 = (bitCount b0 + bitCount b1) % 2 := by
  have hconst : bitCount (0x81 : Byte) = 2 := by decide
  have h0 := bitCount_bitSteps_mod_two 16 b0
  have h1 := bitCount_bitSteps_mod_two 8 b1
  rw [crc8_eq_xor, bitCount_xor_mod_two, hconst, Nat.add_mod, bitCount_xor_mod_two]
  omega

theorem bitCount_crcOf_mod_two (ρ : Realization) (w : Half) : bitCount (crcOf ρ w) % 2 = bitCount w % 2 := by
  rw [crcOf, bitCount_crc8_mod_two, ← bitCount_append]
  exact congrArg (fun v : Half => bitCount v % 2) (highByte_append_lowByte w)

@[simp] theorem packDataWord_unpackDataWord (v : BitVec 24) : packDataWord (unpackDataWord v) = v := by
  have hdata : (v.extractLsb' 16 8 ++ v.extractLsb' 8 8 : BitVec (8 + 8)) = v.extractLsb' 8 (8 + 8) :=
    BitVec.extractLsb'_append_extractLsb'_eq_extractLsb' rfl
  have hword : (v.extractLsb' 8 16 ++ v.extractLsb' 0 8 : BitVec (16 + 8)) = v.extractLsb' 0 (16 + 8) :=
    BitVec.extractLsb'_append_extractLsb'_eq_extractLsb' rfl
  rw [packDataWord, unpackDataWord, hdata]
  exact hword.trans BitVec.extractLsb'_eq_self

theorem weight_mod_two_of_valid {ρ : Realization} {v : BitVec 24} (h : validWord ρ (unpackDataWord v) = true) :
    weight v % 2 = 0 := by
  rw [← packDataWord_unpackDataWord v, weight_eq_bitCount]
  generalize unpackDataWord v = d at h
  have hcrc : crc8 ρ d.b0 d.b1 = d.crc := beq_iff_eq.mp h
  have hparity := bitCount_crc8_mod_two ρ d.b0 d.b1
  rw [hcrc] at hparity
  rw [packDataWord, bitCount_append, bitCount_append]
  omega

end Sys2Proof.Safety

/-! ### Remainders: an undetected error is a multiple of the polynomial -/

namespace Sys2Proof.Safety

open Sys2Proof.Machine

/-- The remainder modulo 0x131 of a 24-bit word as a polynomial over GF(2), of which `bitStep` is the product with x. -/
def remainder (v : BitVec 24) : Byte :=
  bitSteps 16 (v.extractLsb' 16 8) ^^^ bitSteps 8 (v.extractLsb' 8 8) ^^^ v.extractLsb' 0 8

theorem validWord_iff_remainder {ρ : Realization} {v : BitVec 24} :
    validWord ρ (unpackDataWord v) = true ↔ remainder v = 0x81 := by
  simp only [validWord, beq_iff_eq, unpackDataWord, crc8_eq_xor, remainder]
  rw [← BitVec.xor_eq_zero_iff, ← BitVec.xor_eq_zero_iff (y := 0x81)]
  exact Eq.congr_left (by ac_rfl)

theorem remainder_xor (v e : BitVec 24) : remainder (v ^^^ e) = remainder v ^^^ remainder e := by
  simp only [remainder, BitVec.extractLsb'_xor, bitSteps_xor]
  ac_rfl

theorem remainder_eq_zero_of_undetected {ρ : Realization} {w e : BitVec 24}
    (hw : validWord ρ (unpackDataWord w) = true) (hwe : validWord ρ (unpackDataWord (w ^^^ e)) = true) :
    remainder e = 0 := by
  rw [validWord_iff_remainder] at hw hwe
  rw [remainder_xor, hw] at hwe
  exact (BitVec.xor_right_inj 0x81).mp hwe

/-- A byte's top bit, by itself. -/
theorem ushiftRight_seven (r : Byte) : r >>> 7 = if r.getLsbD 7 then 1 else 0 := by
  ext i hi
  obtain rfl | hpos : i = 0 ∨ 0 < i := by omega
  · cases h : r.getLsbD 7 <;> simpa using h
  · have hnone : r.getLsbD (7 + i) = false := BitVec.getLsbD_of_ge r _ (by omega)
    cases r.getLsbD 7 <;> simp [hnone, hpos.ne']

/-- x^8 is 0x31 modulo the polynomial: the bit shifted out comes back as eight bit steps of itself. -/
theorem bitStep_eq_carry (r : Byte) : bitStep r = r <<< 1 ^^^ bitSteps 8 (r >>> 7) := by
  have hone : bitSteps 8 1 = poly := by decide +kernel
  rw [bitStep_eq_xor, ushiftRight_seven]
  cases r.getLsbD 7
  · exact congrArg _ (bitSteps_zero 8).symm
  · exact congrArg _ hone.symm

theorem extractLsb'_zero_shiftLeft_one (v : BitVec 24) : (v <<< 1).extractLsb' 0 8 = v.extractLsb' 0 8 <<< 1 := by
  ext i hi
  simp [show i < 24 by omega, BitVec.getLsbD_eq_getElem (x := v) (show i - 1 < 24 by omega)]

/-- In a shifted word, a byte takes in the top bit of the byte below it. -/
theorem extractLsb'_shiftLeft_one (v : BitVec 24) (m : Nat) (hm : m + 16 ≤ 24) :
    (v <<< 1).extractLsb' (m + 8) 8 = v.extractLsb' (m + 8) 8 <<< 1 ^^^ v.extractLsb' m 8 >>> 7 := by
  ext i hi
  cases i with
  | zero => simpa using fun _ => (by omega : m + 8 < 24)
  | succ i =>
    have hin : m + 8 + (i + 1) < 24 := by omega
    have hout : ¬ 7 + (i + 1) < 8 := by omega
    simp [hin, hout, BitVec.getLsbD_eq_getElem (x := v) (show m + 8 + i < 24 by omega)]

/-- A shift that loses no bit multiplies the polynomial by x. -/
theorem remainder_shiftLeft_one {v : BitVec 24} (h : v.getLsbD 23 = false) :
    remainder (v <<< 1) = bitStep (remainder v) := by
  have hlow := extractLsb'_zero_shiftLeft_one v
  have hmid := extractLsb'_shiftLeft_one v 0 (by decide)
  have hhigh := extractLsb'_shiftLeft_one v 8 (by decide)
  have h7 : (v.extractLsb' 16 8).getLsbD 7 = false := by simpa using h
  have htwice (r : Byte) : bitSteps 16 r = bitSteps 8 (bitSteps 8 r) := bitSteps_add 8 8 r
  simp only [remainder, hlow, hmid, hhigh, bitSteps_xor, bitStep_xor, ← bitSteps_bitStep]
  rw [← bitStep_of_low h7, bitStep_eq_carry (v.extractLsb' 8 8), bitStep_eq_carry (v.extractLsb' 0 8), bitSteps_xor,
    htwice (_ >>> _)]
  ac_rfl

theorem remainder_shiftLeft (v : BitVec 24) (k : Nat) (h : v.toNat < 2 ^ (24 - k)) :
    remainder (v <<< k) = bitSteps k (remainder v) := by
  induction k with
  | zero => rw [BitVec.shiftLeft_zero]; rfl
  | succ k ih =>
    have hk : v.toNat < 2 ^ (24 - k) := h.trans_le (Nat.pow_le_pow_right (by decide) (by omega))
    have htop : v.getLsbD (23 - k) = false :=
      Nat.testBit_lt_two_pow (by rwa [Nat.sub_add_eq, Nat.sub_right_comm] at h)
    have hcarry : (v <<< k).getLsbD 23 = false := by rw [BitVec.getLsbD_shiftLeft, htop, Bool.and_false]
    rw [BitVec.shiftLeft_add, remainder_shiftLeft_one hcarry, ih hk]
    exact (bitSteps_bitStep k _).symm

theorem remainder_setWidth (b : Byte) : remainder (b.setWidth 24) = b := by
  have hlow : (b.setWidth 24).extractLsb' 0 8 = b := by
    ext i hi
    simp [show i < 24 by omega, BitVec.getLsbD_eq_getElem hi]
  have hzero (m : Nat) (hm : 8 ≤ m) : (b.setWidth 24).extractLsb' m 8 = 0 := by
    ext i hi
    simp [BitVec.getLsbD_of_ge b (m + i) (by omega)]
  rw [remainder, hlow, hzero 8 le_rfl, hzero 16 (by decide), bitSteps_zero, bitSteps_zero]
  simp

theorem remainder_twoPow {k : Nat} (hk : k < 24) : remainder (BitVec.twoPow 24 k) = bitSteps k 1 := by
  have hone : remainder 1#24 = 1 := by decide +kernel
  rw [BitVec.twoPow, remainder_shiftLeft 1#24 k (Nat.one_lt_two_pow (by omega)), hone]

end Sys2Proof.Safety

/-! ### Bursts and double errors are no multiples of the polynomial -/

namespace Sys2Proof.Safety

open Sys2Proof.Machine

/-- A burst is a byte placed wholly inside the word, also where `burst8` lets bits fall off its top end. -/
theorem exists_shift_le_of_burst8 {e : BitVec 24} (h : burst8 e) :
    ∃ k ≤ 16, ∃ b : Byte, b ≠ 0 ∧ e = b.setWidth 24 <<< k := by
  obtain ⟨hne, k, b, rfl⟩ := h
  obtain hk | hk := le_or_gt k 16
  · exact ⟨k, hk, b, fun hb => hne (by simp [hb]), rfl⟩
  · have hfits : b.setWidth 24 <<< k = (b <<< (k - 16)).setWidth 24 <<< 16 := by
      ext i hi
      obtain hlt | hle := lt_or_ge i k
      · have hbelow : i < 16 ∨ i - 16 < k - 16 := by omega
        obtain h | h := hbelow <;> simp [hlt, h]
      · have hbit : i - 16 - (k - 16) = i - k := by omega
        have hbyte : b.getLsbD (i - k) = b[i - k] := BitVec.getLsbD_eq_getElem (by omega)
        simp [hbyte, hle.not_gt, hbit, show ¬ i < 16 by omega, show i - 16 < 8 by omega,
          show ¬ i - 16 < k - 16 by omega]
    exact ⟨16, le_rfl, b <<< (k - 16), fun hb => hne (by simp [hfits, hb]), hfits⟩

theorem remainder_ne_zero_of_burst8 {e : BitVec 24} (h : burst8 e) : remainder e ≠ 0 := by
  obtain ⟨k, hk, b, hb, rfl⟩ := exists_shift_le_of_burst8 h
  have hsize : (b.setWidth 24).toNat < 2 ^ (24 - k) :=
    calc (b.setWidth 24).toNat = b.toNat := BitVec.toNat_setWidth_of_le (by decide)
      _ < 2 ^ 8 := b.isLt
      _ ≤ 2 ^ (24 - k) := Nat.pow_le_pow_right (by decide) (by omega)
  rw [remainder_shiftLeft _ k hsize, remainder_setWidth]
  exact mt bitSteps_eq_zero_iff.mp hb

/-- The places of an error pattern's flipped bits. -/
def support (e : BitVec 24) : Finset Nat := (Finset.range 24).filter fun k => e.getLsbD k = true

theorem card_support (e : BitVec 24) : (support e).card = weight e := by
  rw [weight, List.countP_eq_length_filter]
  exact congrArg List.length (List.filter_congr fun k _ => by simp)

theorem mem_support {e : BitVec 24} {k : Nat} : k ∈ support e ↔ k < 24 ∧ e.getLsbD k = true := by
  rw [support, Finset.mem_filter, Finset.mem_range]

theorem exists_twoPow_of_weight_two {e : BitVec 24} (h : weight e = 2) :
    ∃ i j, i < j ∧ j < 24 ∧ e = BitVec.twoPow 24 i ^^^ BitVec.twoPow 24 j := by
  obtain ⟨i, j, hne, hset⟩ := Finset.card_eq_two.mp ((card_support e).trans h)
  have hmem (k : Nat) : k < 24 ∧ e.getLsbD k = true ↔ k = i ∨ k = j := by
    rw [← mem_support, hset, Finset.mem_insert, Finset.mem_singleton]
  obtain ⟨hi, -⟩ := (hmem i).mpr (.inl rfl)
  obtain ⟨hj, -⟩ := (hmem j).mpr (.inr rfl)
  have he : e = BitVec.twoPow 24 i ^^^ BitVec.twoPow 24 j := by
    refine BitVec.eq_of_getLsbD_eq fun k hk => ?_
    have hbit : e.getLsbD k = true ↔ k = i ∨ k = j := by simpa [hk] using hmem k
    rw [Bool.eq_iff_iff, hbit, BitVec.getLsbD_xor, BitVec.getLsbD_twoPow, BitVec.getLsbD_twoPow]
    simp only [hi, hj, decide_true, Bool.true_and, bne_iff_ne, ne_eq, decide_eq_decide]
    omega
  obtain hij | hji := Nat.lt_or_gt_of_ne hne
  · exact ⟨i, j, hij, hj, he⟩
  · exact ⟨j, i, hji, hi, he.trans (BitVec.xor_comm _ _)⟩

/-- x has an order above 23 modulo the polynomial, so x^i and x^j differ modulo it. -/
theorem remainder_ne_zero_of_weight_two {e : BitVec 24} (h : weight e = 2) : remainder e ≠ 0 := by
  obtain ⟨i, j, hij, hj, rfl⟩ := exists_twoPow_of_weight_two h
  have horder : ∀ d < 24, 0 < d → bitSteps d 1 ≠ 1 := by decide +kernel
  rw [remainder_xor, remainder_twoPow (hij.trans hj), remainder_twoPow hj]
  intro hzero
  have heq : bitSteps i 1 = bitSteps i (bitSteps (j - i) 1) := by
    rw [← bitSteps_add, Nat.sub_add_cancel hij.le]
    exact BitVec.xor_eq_zero_iff.mp hzero
  exact horder (j - i) (by omega) (by omega) (bitSteps_injective i heq).symm

end Sys2Proof.Safety

/-! ### Error detection -/

namespace Sys2Proof.Safety

open Sys2Proof.Machine

theorem errField_perform_chk_of_invalid {ρ : Realization} {v : BitVec 24}
    (h : validWord ρ (unpackDataWord v) = false) : errField (perform ρ (0x03#8 ++ v)) = 1 := by
  rw [← packDataWord_unpackDataWord v]
  generalize unpackDataWord v = d at h
  have hchk : performFields ρ ⟨0x03#8, d.b0, d.b1, d.crc⟩ = chkResponse (crc8 ρ d.b0 d.b1) d.b0 d.b1 d.crc :=
    performFields_chk ρ d.b0 d.b1 d.crc
  have hok : okFlag (crc8 ρ d.b0 d.b1) d.crc = false := h
  rw [append_packDataWord, perform_append, hchk, errField_packResponse, chkResponse, hok]
  rfl

/-- One flipped data bit flips the checksum's parity. -/
theorem crcOf_xor_bit_ne (ρ : Realization) (w : Half) (k : Nat) (hk : k < 16) :
    crcOf ρ (w ^^^ (1#16 <<< k)) ≠ crcOf ρ w := fun h => by
  have hone : ∀ k < 16, bitCount (1#16 <<< k) = 1 := by decide +kernel
  have hparity := bitCount_crcOf_mod_two ρ (w ^^^ (1#16 <<< k))
  rw [h, bitCount_crcOf_mod_two, bitCount_xor_mod_two, hone k hk] at hparity
  omega

/-- Errors of odd weight are found by parity, the others by their remainder. -/
theorem validWord_xor_error {ρ : Realization} {w e : BitVec 24} (hw : validWord ρ (unpackDataWord w) = true)
    (he : weight e % 2 = 1 ∨ weight e = 2 ∨ burst8 e) : validWord ρ (unpackDataWord (w ^^^ e)) = false := by
  refine Bool.eq_false_iff.mpr fun hwe => ?_
  have hzero := remainder_eq_zero_of_undetected hw hwe
  obtain hodd | htwo | hburst := he
  · have heven := weight_mod_two_of_valid hw
    have heven' := weight_mod_two_of_valid hwe
    rw [weight_eq_bitCount] at hodd heven heven'
    have hparity := bitCount_xor_mod_two w e
    omega
  · exact remainder_ne_zero_of_weight_two htwo hzero
  · exact remainder_ne_zero_of_burst8 hburst hzero

theorem eq_zero_of_weight_eq_zero {e : BitVec 24} (h : weight e = 0) : e = 0 := by
  refine BitVec.eq_of_getLsbD_eq fun k hk => ?_
  simpa using List.countP_eq_zero.mp h k (List.mem_range.mpr hk)

/-- The weights 1, 2 and 3 are all detected. -/
theorem four_le_weight_of_undetected {ρ : Realization} {w e : BitVec 24} (hw : validWord ρ (unpackDataWord w) = true)
    (hwe : validWord ρ (unpackDataWord (w ^^^ e)) = true) (he : e ≠ 0) : 4 ≤ weight e := by
  have hundetected : ¬ (weight e % 2 = 1 ∨ weight e = 2 ∨ burst8 e) := fun h =>
    Bool.false_ne_true ((validWord_xor_error hw h).symm.trans hwe)
  have hpos : weight e ≠ 0 := mt eq_zero_of_weight_eq_zero he
  omega

/-- Settles O15: parity for single bits and odd weights, remainders for double errors and bursts; R62's example is
evaluated under each realization. -/
theorem errorPatternsDetected : Obligations.ErrorPatternsDetected := by
  unfold Obligations.ErrorPatternsDetected
  intro ρ
  refine ⟨crcOf_xor_bit_ne ρ, fun w e hw he => ?_, fun w e => four_le_weight_of_undetected, ?_⟩
  · have hinvalid := validWord_xor_error hw he
    exact ⟨hinvalid, errField_perform_chk_of_invalid hinvalid⟩
  · cases ρ <;> decide +kernel

end Sys2Proof.Safety

/-! ### The step against Perform -/

namespace Sys2Proof.Machine

/-- Settles O17: one lemma for each outcome of taking and decoding the oldest request. -/
theorem stepRunsDecodedRequest : Obligations.StepRunsDecodedRequest := by
  unfold Obligations.StepRunsDecodedRequest
  exact ⟨fun _ _ _ _ => step_of_instr, fun _ _ _ _ => step_of_rejected, fun _ => step_idle⟩

/-- Settles O27: by cases on what the oldest request decodes to, in `step_eq_perform`. -/
theorem stepRefinesPerform : Obligations.StepRefinesPerform := by
  unfold Obligations.StepRefinesPerform
  exact fun ρ _ _ _ => step_eq_perform ρ

/-- Settles O31: a step is idle, or takes one request and answers it. -/
theorem machineNeverStops : Obligations.MachineNeverStops := by
  unfold Obligations.MachineNeverStops
  intro s
  cases hreq : s.requests with
  | nil => exact ⟨s, step_idle hreq, hreq, rfl⟩
  | cons w rest => exact ⟨_, step_eq_perform .bitwise hreq, rfl, by simp⟩

/-- Settles O32: Perform names nothing of the state, and one realization's answers are the other's. -/
theorem responseDependsOnRequestOnly : Obligations.ResponseDependsOnRequestOnly := by
  unfold Obligations.ResponseDependsOnRequestOnly
  intro s s' w rest rest' h h'
  exact ⟨_, _, perform .bitwise w, step_eq_perform .bitwise h, step_eq_perform .bitwise h', rfl, rfl⟩

/-- Settles O23: a reserved OP is rejected whatever the payload, and every rejected request is answered alike. -/
theorem reservedRequestAnsweredIllegal : Obligations.ReservedRequestAnsweredIllegal := by
  unfold Obligations.ReservedRequestAnsweredIllegal
  intro op b0 b1 ci rest s hop hreq
  have hreject : decode (op ++ b0 ++ b1 ++ ci) = .rejected (.reservedOp op) := by
    rw [decode, fieldsOf_append, decodeFields_of_reserved hop]
  rw [step_of_rejected hreq hreject, execRejected_effect]

end Sys2Proof.Machine

/-! ### The whole effect of each operation -/

namespace Sys2Proof.Machine

section
variable (ρ : Realization) (b0 b1 ci : Byte) (s : State)

theorem exec_gen : exec (.gen b0 b1 ci) s = .next { s with
    acc := none
    responses := s.responses ++ [packResponse (genResponse (crc8 ρ b0 b1))] } := by
  rw [exec_eq_perform ρ, performFields_gen, accAfter]

theorem exec_val : exec (.val b0 b1 ci) s = .next { s with
    acc := none
    responses := s.responses ++ [packResponse (valResponse (crc8 ρ b0 b1) ci)] } := by
  rw [exec_eq_perform ρ, performFields_val, accAfter]

theorem exec_chk : exec (.chk b0 b1 ci) s = .next { s with
    acc := none
    responses := s.responses ++ [packResponse (chkResponse (crc8 ρ b0 b1) b0 b1 ci)] } := by
  rw [exec_eq_perform ρ, performFields_chk, accAfter]

theorem exec_lut : exec (.lut b0 b1 ci) s = .next { s with
    responses := s.responses ++ [packResponse { defaultResponse with crc := rom b0 }] } := by
  rw [exec_eq_perform .bitwise, performFields_lut, accAfter]

end

theorem chkResponse_of_eq (c b0 b1 : Byte) : chkResponse c b0 b1 c =
    { defaultResponse with crc := c, ok := true, data := dataValue b0 b1 } :=
  if_pos (beq_self_eq_true c)

theorem chkResponse_of_ne {c ci : Byte} (h : c ≠ ci) (b0 b1 : Byte) : chkResponse c b0 b1 ci =
    raiseError .badChecksum { defaultResponse with crc := c } :=
  if_neg (mt beq_iff_eq.mp h)

/-- The bit that `packResponse` writes for OK. -/
theorem ofBool_okFlag (c ci : Byte) : BitVec.ofBool (okFlag c ci) = if c = ci then 1#1 else 0#1 := by
  by_cases h : c = ci
  · rw [if_pos h, okFlag, beq_iff_eq.mpr h]
    rfl
  · rw [if_neg h, okFlag, beq_false_of_ne h]
    rfl

/-- Settles O18: the fields of GEN's response, written out as its word. -/
theorem genAnswersChecksum : Obligations.GenAnswersChecksum := by
  unfold Obligations.GenAnswersChecksum
  exact exec_gen

/-- Settles O19: the bit of OK is whether the checksum equals CI. -/
theorem valAnswersWhetherValid : Obligations.ValAnswersWhetherValid := by
  unfold Obligations.ValAnswersWhetherValid
  intro ρ b0 b1 ci s
  rw [exec_val ρ, ← ofBool_okFlag]
  rfl

/-- Settles O20: a case for a valid word and one for an invalid one. -/
theorem chkAnswersValueOrBadChecksum : Obligations.ChkAnswersValueOrBadChecksum := by
  unfold Obligations.ChkAnswersValueOrBadChecksum
  intro ρ b0 b1 ci s
  rw [exec_chk ρ]
  by_cases h : crc8 ρ b0 b1 = ci
  · rw [if_pos h, ← h, chkResponse_of_eq]
    rfl
  · rw [if_neg h, chkResponse_of_ne h]
    rfl

/-- Settles O22: T's entry is eight bit steps of its index, which is the byte step from 0x00. -/
theorem lutAnswersTableEntry : Obligations.LutAnswersTableEntry := by
  unfold Obligations.LutAnswersTableEntry
  intro index b1 ci s
  refine ⟨exec_lut index b1 ci s, ?_, ?_⟩
  · exact (rom_eq_bitSteps index).trans (congrArg (bitSteps 8) BitVec.zero_xor.symm)
  · rw [table_getElem?_eq_bitSteps, rom_eq_bitSteps]

/-- Settles O35: GEN's CRC field is the checksum that VAL and CHK compare CI with. -/
theorem generatedChecksumIsAccepted : Obligations.GeneratedChecksumIsAccepted := by
  unfold Obligations.GeneratedChecksumIsAccepted
  intro b0 b1 ci s
  have hcrc : crcField (packResponse (genResponse (crc8 .bitwise b0 b1))) = crc8 .bitwise b0 b1 :=
    crcField_packResponse _
  refine ⟨_, _, _, _, _, _, exec_gen .bitwise b0 b1 ci s, rfl, exec_val .bitwise b0 b1 _ _, rfl, ?_,
    exec_chk .bitwise b0 b1 _ _, rfl, ?_, ?_⟩
  · rw [hcrc, okField_packResponse]
    exact beq_self_eq_true _
  · rw [hcrc, chkResponse_of_eq, okField_packResponse]
  · rw [hcrc, chkResponse_of_eq, dataField_packResponse]
    rfl

end Sys2Proof.Machine

/-! ### FrameCheck -/

namespace Sys2Proof.Machine

section
variable (ρ : Realization)

theorem perform_chkRequest (d : DataWord) :
    perform ρ (chkRequest d) = packResponse (chkResponse (crc8 ρ d.b0 d.b1) d.b0 d.b1 d.crc) := by
  rw [perform, chkRequest, encode, fieldsOf_wordOf, performFields_chk]

/-- OK of a word's CHK is the word's validity (R68). -/
theorem okField_perform_chkRequest_iff (d : DataWord) :
    okField (perform ρ (chkRequest d)) = true ↔ crc8 ρ d.b0 d.b1 = d.crc := by
  rw [perform_chkRequest, okField_packResponse]
  by_cases h : crc8 ρ d.b0 d.b1 = d.crc
  · simp [h, chkResponse_of_eq]
  · simp [h, chkResponse_of_ne, raiseError]

theorem dataField_perform_chkRequest {d : DataWord} (h : crc8 ρ d.b0 d.b1 = d.crc) :
    dataField (perform ρ (chkRequest d)) = d.b0 ++ d.b1 := by
  rw [perform_chkRequest, h, chkResponse_of_eq, dataField_packResponse, dataValue]

theorem frameCheck_of_valid {ds : List DataWord} (h : ∀ d ∈ ds, crc8 ρ d.b0 d.b1 = d.crc) :
    frameCheck ρ ds = .ok (ds.map fun d => d.b0 ++ d.b1) := by
  have hok : (ds.map fun d => perform ρ (chkRequest d)).all okField = true := by
    simpa [okField_perform_chkRequest_iff] using h
  rw [frameCheck, combineResponses, if_pos hok, List.map_map]
  exact congrArg _ (List.map_congr_left fun d hd => dataField_perform_chkRequest ρ (h d hd))

theorem frameCheck_of_invalid {ds : List DataWord} (h : ¬ ∀ d ∈ ds, crc8 ρ d.b0 d.b1 = d.crc) :
    frameCheck ρ ds = .badChecksum := by
  have hok : ¬ (ds.map fun d => perform ρ (chkRequest d)).all okField = true := by
    simpa [okField_perform_chkRequest_iff] using h
  rw [frameCheck, combineResponses, if_neg hok]

/-- Stopping at the first failing word gives what all the responses together give (R71). -/
theorem frameCheckStopping_eq_frameCheck (ds : List DataWord) :
    frameCheckStopping ρ ds = frameCheck ρ ds := by
  induction ds with
  | nil => rfl
  | cons d ds ih =>
    cases hd : okField (perform ρ (chkRequest d)) with
    | false => simp [frameCheckStopping, frameCheck, combineResponses, hd]
    | true =>
      simp only [frameCheckStopping, ih, frameCheck, combineResponses, List.map_cons, List.all_cons, hd]
      cases (ds.map fun d => perform ρ (chkRequest d)).all okField <;> rfl

end

/-- The four bytes of a ProductId in frame order (R39). -/
theorem wideValue_append (b0 b1 b0' b1' : Byte) :
    wideValue (b0 ++ b1) (b0' ++ b1') = b0 ++ b1 ++ b0' ++ b1' := by
  exact (BitVec.append_assoc' (x₁ := b0 ++ b1) (x₂ := b0') (x₃ := b1')).trans (BitVec.cast_eq rfl _)

/-- Settles O37: a word's CHK answers OK and its value exactly when the word is valid. -/
theorem frameCheckIsAllOrNothing : Obligations.FrameCheckIsAllOrNothing := by
  unfold Obligations.FrameCheckIsAllOrNothing
  intro ρ
  refine ⟨fun ds => ?_, frameCheckStopping_eq_frameCheck ρ, fun b0 b1 b0' b1' => ?_⟩
  · split
    case isTrue h => exact frameCheck_of_valid ρ h
    case isFalse h => exact frameCheck_of_invalid ρ h
  · rw [frameCheck_of_valid ρ (by simp)]
    exact congrArg some (wideValue_append b0 b1 b0' b1')

/-- Settles O38: the frame's CHK requests are answered Perform of each, which is what FrameCheck combines. -/
theorem frameCheckedByTheMachine : Obligations.FrameCheckedByTheMachine := by
  unfold Obligations.FrameCheckedByTheMachine
  intro ρ s ds rest h
  obtain ⟨acc, -, hrun⟩ := run_answers_oldest ρ h
  rw [List.length_map, List.map_map] at hrun
  exact ⟨_, _, hrun, rfl, rfl, rfl⟩

end Sys2Proof.Machine

/-! ### Errors -/

namespace Sys2Proof.Machine

open Sys2Proof.Safety

/-- Settles O21: what CHK answers to a wrong CI, field by field. -/
theorem failedChkIsReportedInBand : Obligations.FailedChkIsReportedInBand := by
  unfold Obligations.FailedChkIsReportedInBand
  intro ρ b0 b1 ci s h
  refine ⟨_, exec_chk ρ b0 b1 ci s, ?_⟩
  simp [chkResponse_of_ne h, raiseError, errCode]

/-- OP is one of the opcode table's, or reserved (R43). -/
theorem op_cases (op : Byte) :
    op = 0x01 ∨ op = 0x02 ∨ op = 0x03 ∨ op = 0x04 ∨ (op = 0x00 ∨ 0x05 ≤ op.toNat) := by
  bv_omega

/-- Code 3 is in no response (R77). -/
theorem errField_perform_ne_three (ρ : Realization) (w : Word) : errField (perform ρ w) ≠ 3 := by
  have h := legalResponse_perform ρ w
  simp only [legalResponse, Bool.and_eq_true, bne_iff_ne] at h
  obtain ⟨⟨⟨⟨-, hne⟩, -⟩, -⟩, -⟩ := h
  exact hne

/-- ILLEGAL_OP goes with nothing else (R70, R77). -/
theorem perform_of_errField_two {ρ : Realization} {w : Word} (h2 : errField (perform ρ w) = 2) :
    perform ρ w = 0x04000000 := by
  have h := legalResponse_perform ρ w
  simp only [legalResponse, Bool.and_eq_true] at h
  obtain ⟨⟨-, hillegal⟩, -⟩ := h
  simpa [h2] using hillegal

/-- The causes of each ERR, for each OP of the table and for a reserved one (R77). -/
theorem errField_perform_iff (ρ : Realization) (op b0 b1 ci : Byte) :
    let r := perform ρ (op ++ b0 ++ b1 ++ ci)
    (errField r = 1 ↔ op = 0x03 ∧ crc8 ρ b0 b1 ≠ ci) ∧
    (errField r = 2 ↔ op = 0x00 ∨ 0x05 ≤ op.toNat) ∧
    (errField r = 0 ↔ op = 0x01 ∨ op = 0x02 ∨ op = 0x04 ∨ (op = 0x03 ∧ crc8 ρ b0 b1 = ci)) := by
  obtain ⟨-, -, -, herr, -⟩ := responseFieldsOfEveryRequest ρ op b0 b1 ci
  simp only [herr]
  obtain rfl | rfl | rfl | rfl | hreserved := op_cases op
  · simp
  · simp
  · by_cases hvalid : crc8 ρ b0 b1 = ci <;> simp [hvalid]
  · simp
  · obtain ⟨hgen, hval, hchk, hlut⟩ := op_ne_of_reserved hreserved
    simpa [hgen, hval, hchk, hlut] using hreserved

/-- Settles O33: the causes are read off ERR's value for each OP; what stands beside BAD_CHECKSUM is CHK's, and beside
ILLEGAL_OP nothing may stand, as in every legal response. -/
theorem errorCodesAndTheirCauses : Obligations.ErrorCodesAndTheirCauses := by
  unfold Obligations.ErrorCodesAndTheirCauses
  intro ρ op b0 b1 ci
  obtain ⟨hbad, hillegal, hnone⟩ := errField_perform_iff ρ op b0 b1 ci
  refine ⟨hbad, hillegal, errField_perform_ne_three ρ _, hnone, fun h => ?_, perform_of_errField_two⟩
  obtain ⟨rfl, hinvalid⟩ := hbad.mp h
  obtain ⟨hcrc, hdata, -⟩ := responseFieldsOfEveryRequest ρ 0x03 b0 b1 ci
  exact ⟨by simpa using hcrc, by simpa [hinvalid] using hdata⟩

end Sys2Proof.Machine

/-! ### A reset of the block -/

namespace Sys2Proof.Machine

/-- One step sees nothing of ACC: from any other ACC it gives the same next state, up to ACC (R14). -/
theorem step_of_other_acc (s : State) (a : Option Byte) :
    ∃ (t : State) (b : Option Byte), step s = .next t ∧ step { s with acc := a } = .next { t with acc := b } := by
  by_cases hidle : s.requests = []
  · exact ⟨s, a, step_idle hidle, step_idle hidle⟩
  · obtain ⟨w, rest, hreq⟩ := List.ne_nil_iff_exists_cons.mp hidle
    exact ⟨_, _, step_eq_perform .bitwise hreq, step_eq_perform .bitwise hreq⟩

/-- A run of any length sees nothing of the ACC it starts from. -/
theorem run_of_other_acc (n : Nat) (s : State) (a : Option Byte) :
    ∃ (t : State) (b : Option Byte), Host.Core.run core n s = .next t ∧
      Host.Core.run core n { s with acc := a } = .next { t with acc := b } := by
  induction n generalizing s a with
  | zero => exact ⟨s, a, run_zero s, run_zero _⟩
  | succ n ih =>
    obtain ⟨t, b, hstep, hstep'⟩ := step_of_other_acc s a
    rw [run_succ_of_step hstep, run_succ_of_step hstep']
    exact ih t b

/-- Settles O44: a reset of the block drops ACC and nothing else, and no run sees ACC. -/
theorem resetIsUnobservable : Obligations.ResetIsUnobservable := by
  unfold Obligations.ResetIsUnobservable
  intro n s
  obtain ⟨t, b, hrun, hrun'⟩ := run_of_other_acc n s none
  exact ⟨t, _, hrun, hrun', rfl, rfl, rfl⟩

end Sys2Proof.Machine

/-! ### The requester's duty -/

namespace Sys2Proof.Safety

open Sys2Proof.Machine

theorem mayUseValue_iff (request response : Word) : mayUseValue request response = true ↔
    ((fieldsOf request).op = 0x02 ∨ (fieldsOf request).op = 0x03) ∧ okField response = true := by
  simp [mayUseValue, opVal, opChk, or_comm]

/-- OK is set by VAL and CHK of a valid word, and by nothing else (R67, R68). -/
theorem okField_perform_iff (ρ : Realization) (op b0 b1 ci : Byte) :
    okField (perform ρ (op ++ b0 ++ b1 ++ ci)) = true ↔ (op = 0x02 ∨ op = 0x03) ∧ crc8 ρ b0 b1 = ci := by
  obtain ⟨-, -, hok, -⟩ := responseFieldsOfEveryRequest ρ op b0 b1 ci
  exact hok

/-- For a word asked with CHK, the requester's duty is the test of OK alone. -/
theorem mayUseValue_chkRequest (d : DataWord) (response : Word) :
    mayUseValue (chkRequest d) response = okField response := by
  simp [mayUseValue, chkRequest, encode, encodeFields]

/-- FrameCheck gives values exactly when every word's CHK answered OK (R71). -/
theorem exists_frameCheck_eq_ok_iff (ρ : Realization) (ds : List DataWord) :
    (∃ values : List Half, frameCheck ρ ds = .ok values) ↔
      ∀ d ∈ ds, okField (perform ρ (chkRequest d)) = true := by
  simp only [okField_perform_chkRequest_iff]
  by_cases hvalid : ∀ d ∈ ds, crc8 ρ d.b0 d.b1 = d.crc
  · exact ⟨fun _ => hvalid, fun _ => ⟨_, frameCheck_of_valid ρ hvalid⟩⟩
  · simp [frameCheck_of_invalid ρ hvalid, hvalid]

/-- Settles O40: OK says that a word was asked with VAL or CHK and is valid; for CHK this is also the cause of ERR = NONE;
and a frame passes as its words' CHK responses do. -/
theorem onlyCheckedValuesAreUsed : Obligations.OnlyCheckedValuesAreUsed := by
  unfold Obligations.OnlyCheckedValuesAreUsed
  refine ⟨fun ρ op b0 b1 ci => ⟨?_, ?_⟩, fun ρ ds => ?_⟩
  · rw [mayUseValue_iff, okField_perform_iff, fieldsOf_append, and_self_left]
  · rintro rfl
    obtain ⟨-, -, hnone⟩ := errField_perform_iff ρ 0x03 b0 b1 ci
    rw [okField_perform_iff, hnone]
    simp
  · rw [exists_frameCheck_eq_ok_iff]
    simp [mayUseFrame, mayUseValue_chkRequest]

end Sys2Proof.Safety

/-! ### The listed frames -/

namespace Sys2Proof.Machine

/-- FrameCheck of a frame's bytes does not depend on the realization (R55, R71). -/
theorem frameCheckBytes_realization (ρ σ : Realization) (k : FrameKind) (bytes : List Byte) :
    frameCheckBytes ρ k bytes = frameCheckBytes σ k bytes := by
  have hperform : perform ρ = perform σ := funext (perform_realization ρ σ)
  have hcheck : frameCheck ρ = frameCheck σ := funext fun ds => by rw [frameCheck, frameCheck, hperform]
  rw [frameCheckBytes, frameCheckBytes, hcheck]

/-- Settles O39: fixed frames, evaluated for one realization, since FrameCheck gives the same under both. -/
theorem listedFramesChecked : Obligations.ListedFramesChecked := by
  unfold Obligations.ListedFramesChecked
  intro ρ
  simp only [frameCheckBytes_realization ρ .bitwise]
  decide +kernel

end Sys2Proof.Machine
